-- ==== Sys2Proof/Word.lean ====
section
/-! DEFINITION. The word types of the block: every value is an unsigned integer of a stated width (R10). -/

namespace Sys2Proof

/-- A colour channel value or the byte in the encoder (R21, R31). -/
abbrev Byte := BitVec 8

/-- A command word or a TX FIFO word (R67, R90). -/
abbrev Word := BitVec 32

/-- A sensor sample (R63). -/
abbrev Sample := BitVec 12

/-- A pixel index as a command or the response port carries it: IDX_BITS = 5 (R8, R61). -/
abbrev PixIndex := BitVec 5

/-- An LED pin number: PIN_BITS = 5 (R8, R26). -/
abbrev PinNumber := BitVec 5

end Sys2Proof
end

