-- ==== Sys2Proof/Config.lean ====
section
/-! DEFINITION. The parameters of 00_scope.md (R7, R8): the fixed ones as constants, the four OPEN ones as a record
that State carries, and the free values of the environment past the end of a scripted run. -/

namespace Sys2Proof.Config

/-- Matrix rows (R7). -/
def rows : Nat := 5
/-- Matrix columns (R7). -/
def cols : Nat := 5
/-- Pixels in the framebuffer and in every frame (R7, R22). -/
abbrev npix : Nat := 25
/-- Words of one frame: three per pixel (R67). -/
def frameWordCount : Nat := 75
/-- Largest sample and the scaling divisor (R7). -/
def adcMax : Nat := 4095
/-- One period of `clk` in nanoseconds (R8). -/
def tickNs : Nat := 125
/-- One bit cell in nanoseconds (R7). -/
def cellNs : Nat := 1250
/-- Bit rate on the wire (R7). -/
def bitRateHz : Nat := 800000
/-- Least quiescent low time that ends a frame, in nanoseconds (R7). -/
def resetNs : Nat := 280000
/-- Ticks of one bit cell (R8, R168). -/
def cellTicks : Nat := 10
/-- Ticks of one FIFO word on the wire (R8, R168). -/
def wordTicks : Nat := 80
/-- Ticks of one frame on the wire (R8, R172). -/
def frameTicks : Nat := 6000
/-- Low ticks that make a frame boundary (R8, R176). -/
def resetTicks : Nat := 2240

/-- The parameters the source leaves OPEN (R8): a model takes them as arguments. -/
structure Params where
  /-- High ticks of the symbol 0 (R169). -/
  t0hTicks : Nat
  /-- High ticks of the symbol 1 (R169). -/
  t1hTicks : Nat
  /-- Words the TX FIFO can hold (R30). -/
  fifoDepth : Nat
  /-- Sequencer slots of each of the two sequencer units (R64). -/
  slots : Nat
deriving DecidableEq, Repr

/-- The defaults of R8, used by the vectors of 95_test_vectors.md.
DESIGN CHOICE (log entry 3): the value State.reset carries; no statement rests on it. Unsafe only for a claim about
State.reset alone. -/
def Params.default : Params := { t0hTicks := 2, t1hTicks := 7, fifoDepth := 4, slots := 4 }

/-- SLOT_BITS = ceil(log2 SLOTS), at least 1 (R8). -/
def Params.slotBits (p : Params) : Nat := Nat.log2 (p.slots - 1) + 1

/-- DRAIN_TICKS, a bound on the wire activity left after a TRANSMIT completed (R183). -/
def Params.drainTicks (p : Params) : Nat := 80 * (p.fifoDepth + 1)

/-! Free values (R35, U14 to U16; log entry 4): the inputs of tick number `t`, for a tick the state's script of inputs
says nothing about. No body: nothing in Lean knows a value of them. -/

/-- `rst` of tick `t`. -/
opaque lateRst : Nat → Bool
/-- `cmd_valid` of tick `t`. -/
opaque lateCmdValid : Nat → Bool
/-- `cmd_word` of tick `t`. -/
opaque lateCmdWord : Nat → BitVec 32
/-- `seq_free0` of tick `t`, bit 0 first. -/
opaque lateSeqFree0 : Nat → List Bool
/-- `seq_free1` of tick `t`, bit 0 first. -/
opaque lateSeqFree1 : Nat → List Bool
/-- `adc_ack` of tick `t`. -/
opaque lateAdcAck : Nat → Bool
/-- `adc_data` of tick `t`: any 12-bit value, no relation between draws (U14). -/
opaque lateAdcData : Nat → BitVec 12

end Sys2Proof.Config
end

