-- ==== Sys2Proof/Syntax.lean ====
section
/-! DEFINITION. The six commands of the block (R3, R92): one constructor per row of spec/opcode_table.json, operands at
their field widths (R93). -/

namespace Sys2Proof

/-- A command, in the source's order of operations (R92); operand order is R101's. -/
inductive Instr where
  /-- DRV_INIT pin: format P (R120). -/
  | drvInit (pin : PinNumber)
  /-- SET_PIXEL index, r, g, b: format X (R140); every index 0..31 is a legal encoding (R95). -/
  | setPixel (index : PixIndex) (r g b : Byte)
  /-- CLEAR: format Z (R143). -/
  | clear
  /-- TRANSMIT: format Z (R160). -/
  | transmit
  /-- MAP_INIT: format Z (R210). -/
  | mapInit
  /-- READ_INDEX: format Z (R211). -/
  | readIndex
deriving DecidableEq, Repr

end Sys2Proof
end

