-- ==== Sys2Proof/WellFormed.lean ====
section
/-! DEFINITION. What is well-formed: a command (always: the operand types are the field widths, so an out-of-range operand
cannot be expressed, U2 of 93_implementation_defined.md) and a choice of the OPEN parameters (R8, R169). -/

namespace Sys2Proof

/-- Every command is well-formed: R93 gives each operand exactly its field's width, and every value of each field has an
encoding (an index of 25..31 is a legal word with a faulting value, R95). Log entry 15. -/
def Instr.wellFormed : Instr → Bool
  | .drvInit _ => true
  | .setPixel _ _ _ _ => true
  | .clear => true
  | .transmit => true
  | .mapInit => true
  | .readIndex => true

/-- The constraints R8 puts on the OPEN parameters:
1 ≤ T0H_TICKS < T1H_TICKS ≤ CELL_TICKS − 1, FIFO_DEPTH ≥ 1, SLOTS ≥ 1. -/
def Config.Params.wellFormed (p : Config.Params) : Bool :=
  decide (1 ≤ p.t0hTicks) && decide (p.t0hTicks < p.t1hTicks) && decide (p.t1hTicks ≤ Config.cellTicks - 1) &&
    decide (1 ≤ p.fifoDepth) && decide (1 ≤ p.slots)

end Sys2Proof
end

