-- ==== Sys2Proof/Decode.lean ====
section
/-! DEFINITION. The decoder (R91, R92, R95, R97), total on all 2^32 words and rejecting by name, and after it the encoder
(R97), written from the same tables. -/

namespace Sys2Proof

/-- Why a word is illegal (R95). -/
inductive IllegalWord where
  /-- `op` is 0b110 or 0b111. -/
  | reservedOp
  /-- Format P with bits 28:5 not all zero, or format Z with bits 28:0 not all zero. -/
  | mustBeZero
deriving DecidableEq, Repr

/-- What a command word decodes to. -/
inductive Decoded where
  /-- A command of R92. -/
  | command (i : Instr)
  /-- No row of R92 matches. -/
  | illegal (why : IllegalWord)
deriving DecidableEq, Repr

/-- `op = cmd_word[31:29]` (R91). -/
def opField (w : Word) : BitVec 3 := w.extractLsb' 29 3

/-- `cmd_word[28:0]`, which format Z has zero (R91). -/
def zeroFieldZ (w : Word) : BitVec 29 := w.extractLsb' 0 29

/-- `cmd_word[28:5]`, which format P has zero (R91). -/
def zeroFieldP (w : Word) : BitVec 24 := w.extractLsb' 5 24

/-- A format Z word is its command only with bits 28:0 zero (R91). -/
def decodeZ (w : Word) (i : Instr) : Decoded :=
  if zeroFieldZ w = 0 then .command i else .illegal .mustBeZero

/-- A format P word is DRV_INIT only with bits 28:5 zero (R91). -/
def decodeP (w : Word) : Decoded :=
  if zeroFieldP w = 0 then .command (.drvInit (w.extractLsb' 0 5)) else .illegal .mustBeZero

/-- A format X word has no reserved bits (R91). -/
def decodeX (w : Word) : Decoded :=
  .command (.setPixel (w.extractLsb' 24 5) (w.extractLsb' 16 8) (w.extractLsb' 8 8) (w.extractLsb' 0 8))

/-- The decode procedure of R97, by the opcode map of R92. -/
def decode (w : Word) : Decoded :=
  if opField w = 0b001 then decodeX w
  else if opField w = 0b000 then decodeP w
  else if opField w = 0b010 then decodeZ w .clear
  else if opField w = 0b011 then decodeZ w .transmit
  else if opField w = 0b100 then decodeZ w .mapInit
  else if opField w = 0b101 then decodeZ w .readIndex
  else .illegal .reservedOp

/-- The command of a decoded word, if it is one. -/
def Decoded.instr? : Decoded → Option Instr
  | .command i => some i
  | .illegal _ => none

/-- The command word whose bits are `w`, bit 0 least significant as in spec/opcode_table.json. A command is presented
whole (R68), so there is no byte order to lay out. Bits above `nbits` are 0; no command is longer than 32 bits (R90). -/
def tableWord (nbits w : Nat) : Word := BitVec.ofNat 32 (w % 2 ^ nbits)

/-- What the decoder reads from the instruction whose bits are `w`. -/
def decodeTableWord (nbits w : Nat) : Option Instr := (decode (tableWord nbits w)).instr?

/-- The inverse of decoding, as R97 gives it. -/
def encode : Instr → Word
  | .drvInit pin => pin.setWidth 32
  | .setPixel index r g b =>
      0x20000000#32 ||| (index.setWidth 32 <<< 24) ||| (r.setWidth 32 <<< 16) ||| (g.setWidth 32 <<< 8) ||| b.setWidth 32
  | .clear => 0x40000000#32
  | .transmit => 0x60000000#32
  | .mapInit => 0x80000000#32
  | .readIndex => 0xA0000000#32

/-- The `match` column of R92. -/
def rowMatch : Instr → Word
  | .drvInit _ => 0x00000000#32
  | .setPixel _ _ _ _ => 0x20000000#32
  | .clear => 0x40000000#32
  | .transmit => 0x60000000#32
  | .mapInit => 0x80000000#32
  | .readIndex => 0xA0000000#32

/-- The `mask` column of R92. -/
def rowMask : Instr → Word
  | .drvInit _ => 0xFFFFFFE0#32
  | .setPixel _ _ _ _ => 0xE0000000#32
  | .clear => 0xFFFFFFFF#32
  | .transmit => 0xFFFFFFFF#32
  | .mapInit => 0xFFFFFFFF#32
  | .readIndex => 0xFFFFFFFF#32

end Sys2Proof
end

