-- ==== Sys2Proof/Machine/State.lean ====
section
/-! DEFINITION. The state of the block (R20), the input ports of a tick (R37), the state after reset (R40), and the
reasons a step can stop. Plain data throughout. -/

namespace Sys2Proof.Machine

/-- A pixel: three 8-bit intensity channels in the order r, g, b (R21). -/
structure Pixel where
  r : Byte
  g : Byte
  b : Byte
deriving DecidableEq, Repr

/-- The driver's lifecycle LIFE (R24). -/
inductive Life where
  /-- DRV_INIT has not succeeded since reset. -/
  | uninit
  /-- A sequencer slot is claimed and held. -/
  | ready
  /-- DRV_INIT found no free slot; only reset leaves it. -/
  | halted
deriving DecidableEq, Repr

/-- Where a READ_INDEX is: M_STATE (R33). -/
inductive MState where
  /-- M_IDLE: no READ_INDEX in progress. -/
  | idle
  /-- M_REQ_Y: sampling sensor channel 1. -/
  | reqY
  /-- M_GAP: the one tick between the two requests. -/
  | gap
  /-- M_REQ_X: sampling sensor channel 0. -/
  | reqX
  /-- M_RESP: the index is on the response port. -/
  | resp
deriving DecidableEq, Repr

/-- The block's own faults (R240). All four are next states of the machine (`raiseFault`), never a `Fault` below. -/
inductive BlockFault where
  /-- Code 1: DRV_INIT with no free slot (R241). -/
  | noSequencer
  /-- Code 2: SET_PIXEL with index ≥ 25 (R242). -/
  | indexRange
  /-- Code 3: an illegal word (R243). -/
  | illegalCommand
  /-- Code 4: a command its lifecycle state does not admit (R244). -/
  | wrongState
deriving DecidableEq, Repr

/-- The input ports of one tick (R37; `clk` is the step itself). A mask lists its bits from bit 0 up. -/
structure Inputs where
  /-- Synchronous reset, active high (R280). -/
  rst : Bool
  /-- The host presents a command this tick. -/
  cmdValid : Bool
  /-- The command word, presented whole (R68). -/
  cmdWord : Word
  /-- Free slots of the primary unit, read when DRV_INIT is accepted (R121). -/
  seqFree0 : List Bool
  /-- Free slots of the secondary unit. -/
  seqFree1 : List Bool
  /-- The sensor delivers a sample this tick; read only while a request stands (R222). -/
  adcAck : Bool
  /-- The sample. -/
  adcData : Sample
deriving DecidableEq, Repr

/-- The complete state of the block (R20) and, last, the model's own three fields. -/
structure State where
  /-- FB[0..24], the framebuffer (R22). -/
  fb : Vector Pixel 25
  /-- LIFE (R24). -/
  life : Life
  /-- MAP_READY (R25). -/
  mapReady : Bool
  /-- INST: 0 primary, 1 secondary (R26). -/
  inst : BitVec 1
  /-- SM: the claimed slot's number, 0..SLOTS − 1 (R26); a number, since its width SLOT_BITS is OPEN (log entry 11). -/
  sm : Nat
  /-- PIN (R26). -/
  pin : PinNumber
  /-- ERR_INDEX, sticky (R27). -/
  errIndex : Bool
  /-- ERR_ILLEGAL, sticky (R27). -/
  errIllegal : Bool
  /-- ERR_STATE, sticky (R27). -/
  errState : Bool
  /-- W_ACTIVE: a TRANSMIT is in progress (R29). -/
  wActive : Bool
  /-- W_PIX: the pixel whose word is pushed next (R29). -/
  wPix : BitVec 5
  /-- W_CH: its colour channel: 0 green, 1 red, 2 blue (R29). -/
  wCh : BitVec 2
  /-- The TX FIFO, oldest word first (R30). -/
  fifo : List Word
  /-- E_RUN: the encoder is inside a word (R31). -/
  eRun : Bool
  /-- E_SR: the byte being sent; bit 7 is the current cell's (R31). -/
  eSr : Byte
  /-- E_LEFT: bits of the word not yet completed (R31). -/
  eLeft : BitVec 4
  /-- E_CNT: the tick inside the current cell (R31). -/
  eCnt : BitVec 4
  /-- M_STATE (R33). -/
  mState : MState
  /-- Y_LAT: the Y sample between the two reads (R33). -/
  yLat : Sample
  /-- IDX_LAT: the index on the response port (R33). -/
  idxLat : PixIndex
  /-- LOW_RUN: consecutive low ticks of `dout`, observation only (R34). -/
  lowRun : Nat
  /-- The MODEL's own: the OPEN parameters (R8), constant along every run (log entry 3). -/
  params : Config.Params
  /-- The MODEL's own: the input ports of this tick and the following ones, this tick's first (log entry 4). -/
  env : List Inputs
  /-- The MODEL's own: ticks run so far, by which later inputs are drawn once `env` is used up (log entry 4). -/
  tick : Nat
deriving DecidableEq, Repr

/-- The state after a reset tick (R40), for given parameters, coming inputs and tick number. Where R40 says
*unspecified* the value is zero: DESIGN CHOICE (log entry 2), unsafe; by R42 nothing observable depends on it. -/
def State.resetOf (params : Config.Params) (env : List Inputs) (tick : Nat) : State where
  fb := Vector.replicate 25 { r := 0, g := 0, b := 0 }
  life := .uninit
  mapReady := false
  inst := 0
  sm := 0
  pin := 0
  errIndex := false
  errIllegal := false
  errState := false
  wActive := false
  wPix := 0
  wCh := 0
  fifo := []
  eRun := false
  eSr := 0
  eLeft := 0
  eCnt := 0
  mState := .idle
  yLat := 0
  idxLat := 0
  lowRun := 0
  params := params
  env := env
  tick := tick

/-- The machine right after reset (R40, R281): the default parameters of R8 (log entry 3), no scripted input
(log entry 4), tick 0. -/
def State.reset : State := State.resetOf Config.Params.default [] 0

/-- Why the MODEL stops. The block's own four faults are not here: they are next states (R248). -/
inductive Fault where
  /-- Raised by `walkerStep` when the walker is to push while (W_PIX, W_CH) names no pixel channel (W_PIX above 24 or
  W_CH = 3): R29 gives no such position and R69 no such pixel. Safe: R39 (b) rules it out in every state a run reaches
  (log entry 9). -/
  | walkerPosition
deriving DecidableEq, Repr

/-- Why the model has no meaning for an instruction. -/
inductive Refusal where
  /-- Raised by `exec`'s arm of an instruction that has no meaning yet; safe. No arm does so now. -/
  | notModelled (mnemonic : String)
deriving DecidableEq, Repr

/-- The answer of a step. -/
abbrev Result := Host.Outcome State Fault Refusal

end Sys2Proof.Machine
end

