-- ==== Sys2Proof/Machine/Ops.lean ====
section
/-! DEFINITION. The named operations on the state that the meanings and the agents share: the inputs of a tick, pixel
access, the FIFO, the slot claim, raising a fault, and reset. -/

namespace Sys2Proof.Machine

/-- The environment's inputs of tick `t` when no script covers it: free values (R35, U14 to U16; log entry 4). -/
def lateInputs (t : Nat) : Inputs where
  rst := Config.lateRst t
  cmdValid := Config.lateCmdValid t
  cmdWord := Config.lateCmdWord t
  seqFree0 := Config.lateSeqFree0 t
  seqFree1 := Config.lateSeqFree1 t
  adcAck := Config.lateAdcAck t
  adcData := Config.lateAdcData t

/-- The input ports `k` ticks after the tick about to run. -/
def State.inputsAt (s : State) (k : Nat) : Inputs := (s.env[k]?).getD (lateInputs (s.tick + k))

/-- The input ports of the tick about to run. -/
def State.inputs (s : State) : Inputs := s.inputsAt 0

/-- The tick's inputs are used up and the tick is counted; `s` is the state at its start. -/
def advance (s t : State) : State := { t with env := s.env.tail, tick := s.tick + 1 }

/-- `FB[i]`, if `i` names a pixel (R61, R69). -/
def readPixel (fb : Vector Pixel 25) (i : PixIndex) : Option Pixel := fb[i.toNat]?

/-- `FB[i] <- px`, all three channels at once (R11, R70); an index that names no pixel writes nothing (R69). -/
def writePixel (s : State) (i : PixIndex) (px : Pixel) : State := { s with fb := s.fb.setIfInBounds i.toNat px }

/-- The pixel (0, 0, 0). -/
def blackPixel : Pixel := { r := 0, g := 0, b := 0 }

/-- Every pixel becomes (0, 0, 0) in one update (R70, R123, R143). -/
def clearPixels (s : State) : State := { s with fb := Vector.replicate 25 blackPixel }

/-- The FIFO holds fewer than FIFO_DEPTH words (R30). -/
def State.fifoHasRoom (s : State) : Bool := decide (s.fifo.length < s.params.fifoDepth)

/-- `FifoPush(w)`: append at the tail (R11, R30). -/
def fifoPush (t : State) (w : Word) : State := { t with fifo := t.fifo ++ [w] }

/-- The queue's side of `FifoPop()`: the oldest word leaves (R11, R30). -/
def fifoPop (t : State) : State := { t with fifo := t.fifo.tail }

/-- The lowest-numbered free slot of a mask, bits listed from bit 0 (R121). -/
def firstFree : List Bool → Option Nat
  | [] => none
  | true :: _ => some 0
  | false :: rest => (firstFree rest).map (· + 1)

/-- `Claim(f0, f1)` of R121 over masks of SLOTS bits: the lowest free slot of the primary, else of the secondary, else
none. Entries past SLOTS are no wires of the port and a missing entry is a slot not free (log entry 11). -/
def claim (slots : Nat) (f0 f1 : List Bool) : Option (BitVec 1 × Nat) :=
  match firstFree (f0.take slots) with
  | some k => some (0, k)
  | none =>
    match firstFree (f1.take slots) with
    | some k => some (1, k)
    | none => none

/-- The platform's slot held by the block: (INST, SM) <- c (R120). -/
def holdSlot (s : State) (c : BitVec 1 × Nat) (pin : PinNumber) : State :=
  { s with inst := c.1, sm := c.2, pin := pin }

/-- `raise <Fault>` (R248): sets the record of R240's table and writes no other state element. There is no saved
context, no vector and no handler, and no return: only reset clears a record (R249). -/
def raiseFault (f : BlockFault) (s : State) : State :=
  match f with
  | .noSequencer => { s with life := .halted }
  | .indexRange => { s with errIndex := true }
  | .illegalCommand => { s with errIllegal := true }
  | .wrongState => { s with errState := true }

/-- The fault codes of R240. -/
def BlockFault.code : BlockFault → Nat
  | .noSequencer => 1
  | .indexRange => 2
  | .illegalCommand => 3
  | .wrongState => 4

/-- A tick with `rst = 1`: the next state is the reset state whatever the state was (R280). The parameters are not
state (R36) and stay. -/
def applyReset (s : State) : State := State.resetOf s.params s.env.tail (s.tick + 1)

/-- Go on from a result that is a next state. -/
def andThen (o : Result) (k : State → Result) : Result :=
  match o with
  | .next t => k t
  | .fault f => .fault f
  | .refused r => .refused r

/-- The host presents `w` in the tick about to run and reset is not asserted; the other inputs stay as they were. -/
def State.present (s : State) (w : Word) : State :=
  { s with env := { s.inputs with rst := false, cmdValid := true, cmdWord := w } :: s.env.tail }

end Sys2Proof.Machine
end

