-- ==== Sys2Proof/Machine/Flags.lean ====
section
/-! DEFINITION. The status flags: BUSY and STATUS as functions of the state (R28), and `cmd_ready` with the acceptance
condition (R38). The sticky flags themselves are set by `raiseFault` in Ops. -/

namespace Sys2Proof.Machine

/-- BUSY: a multi-tick operation is in progress (R28). -/
def State.busy (s : State) : Bool := s.wActive || decide (s.mState ≠ .idle)

/-- STATUS, bit 7 on the left (R28). -/
def State.status (s : State) : BitVec 8 :=
  0#1 ++ BitVec.ofBool s.errState ++ BitVec.ofBool s.errIllegal ++ BitVec.ofBool s.errIndex ++
    BitVec.ofBool (decide (s.life = .halted)) ++ BitVec.ofBool s.busy ++ BitVec.ofBool s.mapReady ++
    BitVec.ofBool (decide (s.life = .ready))

/-- `cmd_ready` (R38). -/
def State.cmdReady (s : State) : Bool :=
  decide (s.life ≠ .halted) && !s.wActive && decide (s.mState = .idle)

/-- A command is accepted this tick: rst = 0, cmd_valid = 1 and cmd_ready = 1 (R38, R100). -/
def State.accepts (s : State) : Bool := !s.inputs.rst && s.inputs.cmdValid && s.cmdReady

end Sys2Proof.Machine
end

