-- ==== Sys2Proof/Machine/Operands.lean ====
section
/-! DEFINITION. Operand forms and the values the block computes from them: the pixel index's range, the TX word, the
channel the walker sends, the mapper's arithmetic, and the encodings of the enumerated state. -/

namespace Sys2Proof.Machine

/-- `index` in [0, 25): the index names a pixel (R69, R141). -/
def indexLegal (i : PixIndex) : Bool := decide (i.toNat < Config.npix)

/-- `TxWord(v) = zext_32(v) << 24` (R67). -/
def txWord (v : Byte) : Word := v.setWidth 32 <<< 24

/-- The byte the encoder sends of a word, `w[31:24]` (R167). -/
def wordByte (w : Word) : Byte := w.extractLsb' 24 8

/-- The colour channel of a pixel that W_CH selects: 0 green, 1 red, 2 blue (R29, R162). -/
def channelOf (px : Pixel) (c : BitVec 2) : Option Byte :=
  if c = 0 then some px.g else if c = 1 then some px.r else if c = 2 then some px.b else none

/-- The colour value of walker position (W_PIX, W_CH), where the position names one (R162). -/
def walkerByte (fb : Vector Pixel 25) (p : BitVec 5) (c : BitVec 2) : Option Byte :=
  match readPixel fb p with
  | some px => channelOf px c
  | none => none

/-- Range scaling `v * 5 / 4095`: multiply first, then floor division (R214, R215). -/
def scaleToFive (v : Nat) : Nat := v * 5 / Config.adcMax

/-- A computed value ≥ 5 is forced to 4 (R216). -/
def clampFour (v : Nat) : Nat := if 5 ≤ v then 4 else v

/-- Serpentine correction: on row 1 or 3 the column is inverted (R217). -/
def serpentine (row col : Nat) : Nat := if row = 1 ∨ row = 3 then 4 - col else col

/-- The row of pixel `i` (R23, R72). -/
def pixelRow (i : PixIndex) : Nat := i.toNat / 5

/-- The logical column of pixel `i` (R23, R72). -/
def pixelCol (i : PixIndex) : Nat := i.toNat % 5

/-- The physical column of LED `i` on a serpentine matrix (R72): reversed on rows 1 and 3. -/
def physicalColumn (i : PixIndex) : Nat := serpentine (pixelRow i) (pixelCol i)

/-- `MapIndex` on natural numbers (R213, R225): scale, clamp, invert, flatten, in that order. -/
def mapIndexNat (x y : Nat) : Nat :=
  let row := clampFour (scaleToFive x)
  let col := clampFour (scaleToFive (Config.adcMax - y))
  row * 5 + serpentine row col

/-- `MapIndex(x, y)` of two samples; the result fits IDX_BITS (R213, R218). -/
def mapIndex (x y : Sample) : PixIndex := BitVec.ofNat 5 (mapIndexNat x.toNat y.toNat)

/-- The encoding of LIFE (R20). -/
def Life.code : Life → BitVec 2
  | .uninit => 0
  | .ready => 1
  | .halted => 2

/-- The encoding of M_STATE (R20). -/
def MState.code : MState → BitVec 3
  | .idle => 0
  | .reqY => 1
  | .gap => 2
  | .reqX => 3
  | .resp => 4

end Sys2Proof.Machine
end

