-- ==== Sys2Proof/Machine/Driver.lean ====
section
/-! DEFINITION. Driver initialisation: DRV_INIT (40_driver_init.md). -/

namespace Sys2Proof.Machine

/-- DRV_INIT with LIFE = UNINIT, after the claim (R120, R122, R123). -/
def initDriver (c : Option (BitVec 1 × Nat)) (pin : PinNumber) (s : State) : State :=
  match c with
  | none => raiseFault .noSequencer s
  | some c => { clearPixels (holdSlot s c pin) with life := .ready }

/-- DRV_INIT pin (R120): WrongState unless LIFE = UNINIT (R125), else the claim over the masks of the accepting tick. -/
def execDrvInit (pin : PinNumber) (s : State) : Result :=
  if s.life = .uninit then
    .next (initDriver (claim s.params.slots s.inputs.seqFree0 s.inputs.seqFree1) pin s)
  else .next (raiseFault .wrongState s)

end Sys2Proof.Machine
end

