-- ==== Sys2Proof/Machine/Framebuffer.lean ====
section
/-! DEFINITION. Framebuffer operations: SET_PIXEL and CLEAR (41_framebuffer.md). -/

namespace Sys2Proof.Machine

/-- SET_PIXEL index, r, g, b (R140): WrongState unless LIFE = READY (R148), then IndexRange for index ≥ 25 (R141). -/
def execSetPixel (index : PixIndex) (r g b : Byte) (s : State) : Result :=
  if s.life = .ready then
    if indexLegal index then .next (writePixel s index { r := r, g := g, b := b })
    else .next (raiseFault .indexRange s)
  else .next (raiseFault .wrongState s)

/-- CLEAR (R143): WrongState unless LIFE = READY (R148). -/
def execClear (s : State) : Result :=
  if s.life = .ready then .next (clearPixels s) else .next (raiseFault .wrongState s)

end Sys2Proof.Machine
end

