-- ==== Sys2Proof/Machine/Mapper.lean ====
section
/-! DEFINITION. The joystick mapper: MAP_INIT, READ_INDEX and the mapper sequencer (43_mapper.md). -/

namespace Sys2Proof.Machine

/-- MAP_INIT (R210): MAP_READY <- 1; no precondition, no fault. -/
def execMapInit (s : State) : Result := .next { s with mapReady := true }

/-- READ_INDEX (R211): WrongState unless MAP_READY = 1 (R224); else the sequencer starts with the Y request (R222). -/
def execReadIndex (s : State) : Result :=
  if s.mapReady then .next { s with mState := .reqY } else .next (raiseFault .wrongState s)

/-- `MapperStep` (R222): reads the state `s` and the inputs of the tick, writes into `t`. -/
def mapperStep (s t : State) : State :=
  match s.mState with
  | .idle => t
  | .reqY => if s.inputs.adcAck then { t with yLat := s.inputs.adcData, mState := .gap } else t
  | .gap => { t with mState := .reqX }
  | .reqX =>
    if s.inputs.adcAck then { t with idxLat := mapIndex s.inputs.adcData s.yLat, mState := .resp } else t
  | .resp => { t with mState := .idle }

end Sys2Proof.Machine
end

