-- ==== Sys2Proof/Machine/Transmit.lean ====
section
/-! DEFINITION. TRANSMIT and the walker that carries it out (42_transmit_encoder.md, R160 to R165, R179). -/

namespace Sys2Proof.Machine

/-- W_ACTIVE <- 1; W_PIX <- 0; W_CH <- 0 (R160). -/
def startWalker (s : State) : State := { s with wActive := true, wPix := 0, wCh := 0 }

/-- TRANSMIT (R160): WrongState unless LIFE = READY; else the walker starts. The pushes are the walker's steps of the
following ticks. -/
def execTransmit (s : State) : Result :=
  if s.life = .ready then .next (startWalker s) else .next (raiseFault .wrongState s)

/-- The walker moves past position (W_PIX, W_CH) of `s` (R29, R179); after (24, 2) the TRANSMIT is complete (R164). -/
def walkerAdvance (s t : State) : State :=
  if s.wCh.toNat < 2 then { t with wCh := s.wCh + 1 }
  else if s.wPix.toNat < 24 then { t with wPix := s.wPix + 1, wCh := 0 }
  else { t with wActive := false }

/-- The walker pushes this tick: it is active and the FIFO, as it stood at the start of the tick, has room (R179). -/
def State.walkerPushes (s : State) : Bool := s.wActive && s.fifoHasRoom

/-- `WalkerStep` (R179): reads the state `s` at the start of the tick, writes into `t`. A position that names no pixel
channel is the model's fault (log entry 9). -/
def walkerStep (s t : State) : Result :=
  if s.walkerPushes then
    match walkerByte s.fb s.wPix s.wCh with
    | some v => .next (walkerAdvance s (fifoPush t (txWord v)))
    | none => .fault .walkerPosition
  else .next t

end Sys2Proof.Machine
end

