-- ==== Sys2Proof/Machine/Dispatch.lean ====
section
/-! DEFINITION. The command step of an accepted command: one arm per constructor of Instr, each one call of its meaning.
What surrounds it in a tick (acceptance, the other agents) is Machine/Clock.lean's (log entry 7). -/

namespace Sys2Proof.Machine

def exec (i : Instr) (s : State) : Host.Outcome State Fault Refusal :=
  match i with
  | .drvInit pin => Sys2Proof.Machine.execDrvInit pin s
  | .setPixel index r g b => Sys2Proof.Machine.execSetPixel index r g b s
  | .clear => Sys2Proof.Machine.execClear s
  | .transmit => Sys2Proof.Machine.execTransmit s
  | .mapInit => Sys2Proof.Machine.execMapInit s
  | .readIndex => Sys2Proof.Machine.execReadIndex s

end Sys2Proof.Machine
end

