-- ==== Sys2Proof/Machine/Encoder.lean ====
section
/-! DEFINITION. The single-wire encoder: `dout` (R32, R169), its step (R178) and the wire observer (R34). -/

namespace Sys2Proof.Machine

/-- `TH(bit)`: high ticks of a symbol (R32, R169). -/
def pulseTicks (p : Config.Params) (bit : Bool) : Nat := if bit then p.t1hTicks else p.t0hTicks

/-- `dout` during the tick that starts in `s` (R32). -/
def State.dout (s : State) : Bool := s.eRun && decide (s.eCnt.toNat < pulseTicks s.params (s.eSr.getLsbD 7))

/-- A popped word is loaded: E_SR <- w[31:24], E_LEFT <- 8, E_CNT <- 0 (R178). -/
def loadWord (w : Word) (t : State) : State :=
  { fifoPop t with eSr := wordByte w, eLeft := 8, eCnt := 0 }

/-- `EncoderStep` (R178): reads the state `s` at the start of the tick, writes into `t`. -/
def encoderStep (s t : State) : State :=
  if s.eRun then
    if s.eCnt.toNat < Config.cellTicks - 1 then { t with eCnt := s.eCnt + 1 }
    else if 1 < s.eLeft.toNat then { t with eSr := s.eSr <<< 1, eLeft := s.eLeft - 1, eCnt := 0 }
    else
      match s.fifo with
      | w :: _ => loadWord w t
      | [] => { t with eRun := false }
  else
    match s.fifo with
    | w :: _ => { loadWord w t with eRun := true }
    | [] => t

/-- The encoder pops a word in the tick that starts in `s` (R178): it is idle, or in the last tick of its word. -/
def State.encoderPops (s : State) : Bool :=
  !s.fifo.isEmpty && (!s.eRun || (decide (Config.cellTicks - 1 ≤ s.eCnt.toNat) && decide (s.eLeft.toNat ≤ 1)))

/-- LOW_RUN <- 0 if dout = 1 else LOW_RUN + 1, with `dout` of the tick that starts in `s` (R34). -/
def lowRunStep (s t : State) : State := { t with lowRun := if s.dout then 0 else s.lowRun + 1 }

end Sys2Proof.Machine
end

