-- ==== Sys2Proof/Machine/Clock.lean ====
section
/-! DEFINITION. One tick of the block (R41): acceptance and the command step (R100), then the agents, all reading the
state at the start of the tick; a reset tick instead of them (R280). -/

namespace Sys2Proof.Machine

/-- The command step of the tick (R100): the accepted word is decoded; a command has its own rule, an illegal word
raises IllegalCommand (R95, R243); nothing accepted, nothing done. -/
def commandStep (s : State) : Result :=
  if s.accepts then
    match decode s.inputs.cmdWord with
    | .command i => exec i s
    | .illegal _ => .next (raiseFault .illegalCommand s)
  else .next s

/-- The four agents of a tick (R41). Each reads `s`, the state at the start of the tick, and writes its own elements
into `t`, which holds the command step's. The encoder's pop goes before the walker's push, so that both take effect
(R180). -/
def agentSteps (s t : State) : Result :=
  andThen (walkerStep s (encoderStep s t)) fun u =>
    .next (advance s (lowRunStep s (mapperStep s u)))

/-- One tick (R41, R280). -/
def clockTick (s : State) : Result :=
  if s.inputs.rst then .next (applyReset s) else andThen (commandStep s) (agentSteps s)

end Sys2Proof.Machine
end

