-- ==== Sys2Proof/Machine/Step.lean ====
section
/-! DEFINITION. The step of the machine, and the placing of a command where the next step takes it. -/

namespace Sys2Proof.Machine

/-- One step is one tick of `clk` (R12, R41). -/
def step (s : State) : Host.Outcome State Fault Refusal := clockTick s

/-- `s` with the command word presented by the host in the tick about to run (R100): the block fetches nothing (R29), a
command comes from outside through `cmd_word` (log entry 4). -/
def State.withFetchWord (s : State) (nbits w : Nat) : State := s.present (tableWord nbits w)

end Sys2Proof.Machine
end

