-- ==== Sys2Proof/Machine/Ports.lean ====
section
/-! DEFINITION. The output ports of a tick, functions of the state at its start (R37, R41). -/

namespace Sys2Proof.Machine

/-- The output ports (R37), as driven. -/
structure Outputs where
  cmdReady : Bool
  rspValid : Bool
  rspIndex : PixIndex
  status : BitVec 8
  dout : Bool
  ledPin : PinNumber
  seqClaimed : Bool
  seqInst : BitVec 1
  seqSlot : Nat
  adcEn : BitVec 2
  adcReq : Bool
  adcSel : Bool
deriving DecidableEq, Repr

/-- `rsp_valid` (R37). -/
def State.rspValid (s : State) : Bool := decide (s.mState = .resp)

/-- `seq_claimed` (R37). -/
def State.seqClaimed (s : State) : Bool := decide (s.life = .ready)

/-- `adc_req`: 1 iff M_STATE is M_REQ_Y or M_REQ_X (R37). -/
def State.adcReq (s : State) : Bool := decide (s.mState = .reqY) || decide (s.mState = .reqX)

/-- `adc_sel`: sensor channel 1 iff M_STATE = M_REQ_Y (R37). -/
def State.adcSel (s : State) : Bool := decide (s.mState = .reqY)

/-- `adc_en` = (MAP_READY, MAP_READY) (R37). -/
def State.adcEn (s : State) : BitVec 2 := BitVec.ofBool s.mapReady ++ BitVec.ofBool s.mapReady

/-- All output ports of the tick that starts in `s` (R37). The value of a port while its qualifier is 0 is left open by
U18; here the port shows the register R37 names for it (log entry 12), and `Outputs.observed` hides it. -/
def State.outputs (s : State) : Outputs where
  cmdReady := s.cmdReady
  rspValid := s.rspValid
  rspIndex := s.idxLat
  status := s.status
  dout := s.dout
  ledPin := s.pin
  seqClaimed := s.seqClaimed
  seqInst := s.inst
  seqSlot := s.sm
  adcEn := s.adcEn
  adcReq := s.adcReq
  adcSel := s.adcSel

/-- What the outside can rely on (R15, R37, U18): a qualified port has a value only under its qualifier. `led_pin` is
meaningful only while LIFE = READY, which is `seq_claimed`. -/
structure Observed where
  cmdReady : Bool
  response : Option PixIndex
  status : BitVec 8
  dout : Bool
  claimed : Option (BitVec 1 × Nat × PinNumber)
  adcEn : BitVec 2
  adcReq : Bool
  adcSel : Bool
deriving DecidableEq, Repr

/-- The observable part of the output ports. -/
def Outputs.observed (o : Outputs) : Observed where
  cmdReady := o.cmdReady
  response := if o.rspValid then some o.rspIndex else none
  status := o.status
  dout := o.dout
  claimed := if o.seqClaimed then some (o.seqInst, o.seqSlot, o.ledPin) else none
  adcEn := o.adcEn
  adcReq := o.adcReq
  adcSel := o.adcSel

end Sys2Proof.Machine
end

