-- ==== Sys2Proof/Machine/Wire.lean ====
section
/-! DEFINITION. The wire format (R162, R169, R170, R172) and the reading of the wire (R173, R176, R177): which words and
bits a frame has, what a cell looks like tick by tick, and what an observer of `dout` reads off. None of it is state. -/

namespace Sys2Proof.Machine

/-- `ByteBits(v)`: v[7] first, v[0] last (R65, R170). -/
def byteBits (v : Byte) : List Bool :=
  [v.getLsbD 7, v.getLsbD 6, v.getLsbD 5, v.getLsbD 4, v.getLsbD 3, v.getLsbD 2, v.getLsbD 1, v.getLsbD 0]

/-- `PixelBits(r, g, b)`: green, red, blue (R66, R170). -/
def pixelBits (px : Pixel) : List Bool := byteBits px.g ++ byteBits px.r ++ byteBits px.b

/-- `FrameBits(FB)`: pixels in ascending index order (R172). -/
def frameBits (fb : Vector Pixel 25) : List Bool := fb.toList.flatMap pixelBits

/-- The three words of a pixel, in push order (R67, R162). -/
def pixelWords (px : Pixel) : List Word := [txWord px.g, txWord px.r, txWord px.b]

/-- `FrameWords(FB)` (R162). -/
def frameWords (fb : Vector Pixel 25) : List Word := fb.toList.flatMap pixelWords

/-- The 8 bits the encoder sends of a word (R167). -/
def wordBits (w : Word) : List Bool := byteBits (wordByte w)

/-- One bit cell tick by tick: a high pulse of TH(bit) ticks, low for the rest (R168, R169). -/
def cellLevels (p : Config.Params) (bit : Bool) : List Bool :=
  List.replicate (pulseTicks p bit) true ++ List.replicate (Config.cellTicks - pulseTicks p bit) false

/-- The cells of a bit sequence, one after the other (R168). -/
def cells (p : Config.Params) (bits : List Bool) : List Bool := bits.flatMap (cellLevels p)

/-- How many words of the frame the walker has pushed when it stands at (W_PIX, W_CH) (R29). -/
def State.walkerPos (s : State) : Nat := 3 * s.wPix.toNat + s.wCh.toNat

/-- The words a TRANSMIT in progress has still to push (R161, R162). -/
def State.pendingWords (s : State) : List Word :=
  if s.wActive then (frameWords s.fb).drop s.walkerPos else []

/-- The bits of the word in the encoder not yet completed, the current cell's first (R31). -/
def State.encoderBits (s : State) : List Bool := if s.eRun then (byteBits s.eSr).take s.eLeft.toNat else []

/-- Every bit the block still owes the wire, in the order it will be sent (R166, R167): the encoder's, then the FIFO's,
then those of the words still to push. -/
def State.owedBits (s : State) : List Bool :=
  s.encoderBits ++ s.fifo.flatMap wordBits ++ s.pendingWords.flatMap wordBits

/-- What an observer of the wire sees (R173, R176). -/
inductive WireEvent where
  /-- A high pulse has ended; its symbol, or none if its length is neither T0H_TICKS nor T1H_TICKS. -/
  | pulse (symbol : Option Bool)
  /-- The low run has reached RESET_TICKS: a frame boundary. -/
  | boundary
deriving DecidableEq, Repr

/-- The symbol of a maximal run of `n` high ticks (R173). -/
def symbolOf (p : Config.Params) (n : Nat) : Option Bool :=
  if n = p.t0hTicks then some false else if n = p.t1hTicks then some true else none

/-- The events of a low tick that follows `high` high ticks and `low` low ticks (R173, R176). -/
def lowTickEvents (p : Config.Params) (high low : Nat) : List WireEvent :=
  (if high = 0 then [] else [WireEvent.pulse (symbolOf p high)]) ++
    (if low + 1 = Config.resetTicks then [WireEvent.boundary] else [])

/-- Reading the levels of `dout` tick by tick (R173, R176); `high` and `low` are the lengths of the runs that end just
before the list. -/
def readWire (p : Config.Params) (high low : Nat) : List Bool → List WireEvent
  | [] => []
  | true :: rest => readWire p (high + 1) 0 rest
  | false :: rest => lowTickEvents p high low ++ readWire p 0 (low + 1) rest

/-- A byte from its bits, most significant first. -/
def bitsToByte (bits : List Bool) : Byte := bits.foldl (fun v b => (v <<< 1) ||| (BitVec.ofBool b).setWidth 8) 0

/-- A pixel from its 24 symbols, read as g, r, b (R177). -/
def bitsToPixel (bits : List Bool) : Pixel where
  r := bitsToByte ((bits.drop 8).take 8)
  g := bitsToByte (bits.take 8)
  b := bitsToByte ((bits.drop 16).take 8)

/-- The first `n` pixels of a burst, 24 symbols each (R177). -/
def burstPixels : Nat → List Bool → List Pixel
  | 0, _ => []
  | n + 1, bits => bitsToPixel (bits.take 24) :: burstPixels n (bits.drop 24)

/-- All pulses of a burst as symbols, if each is one. -/
def burstSymbols : List (Option Bool) → Option (List Bool)
  | [] => some []
  | some b :: rest => (burstSymbols rest).map (b :: ·)
  | none :: _ => none

/-- The colours a closed burst shows, LED 0 first, by the contract of R177: those of a burst of exactly 600 symbols; of any
other burst nothing is known (U4), hence none. -/
def ledColours (burst : List (Option Bool)) : Option (List Pixel) :=
  match burstSymbols burst with
  | some bits => if bits.length = 600 then some (burstPixels Config.npix bits) else none
  | none => none

/-- What the LED chain is known to show after a sequence of events (R177, U4; log entry 14): the colours of the burst that
the last boundary closed, as long as no symbol came after it. `burst` holds the pulses since the last boundary, `shown`
what the bursts before them left. -/
def ledsShow (burst : List (Option Bool)) (shown : Option (List Pixel)) : List WireEvent → Option (List Pixel)
  | [] => if burst = [] then shown else none
  | .pulse b :: rest => ledsShow (burst ++ [b]) shown rest
  | .boundary :: rest => ledsShow [] (if burst = [] then shown else ledColours burst) rest

end Sys2Proof.Machine
end

