-- ==== Sys2Proof/Safety.lean ====
section
/-! DEFINITION. The terms claims are stated in: quiescent and latched (R17), a latched line (R176), a run that ended in a fault (R17, R250), the
invariants of R39, premises on the inputs of coming ticks, the wire over several ticks, and what may differ between two
states that no observer can tell apart (R42). -/

namespace Sys2Proof.Machine

/-- *Quiescent* (R17): no command in progress, FIFO empty, encoder idle. -/
abbrev State.Quiescent (s : State) : Prop :=
  s.wActive = false ∧ s.mState = .idle ∧ s.fifo = [] ∧ s.eRun = false

/-- `Latched(S)` (R176): the line has been low for at least RESET_TICKS, whatever else the block is doing. -/
abbrev State.Latched (s : State) : Prop := Config.resetTicks ≤ s.lowRun

/-- *Latched* as the end of a run (R17): quiescent, and in addition the line is latched. -/
abbrev State.QuiescentLatched (s : State) : Prop := s.Quiescent ∧ s.Latched

/-- A run that ends here has ended in a fault, not in a final state (R17, R250; log entry 8). -/
abbrev State.EndedInFault (s : State) : Prop := s.life = .halted

/-- The host keeps the reset interval of R286 when it presents a TRANSMIT in a tick that starts in such a state: the
encoder has nothing left, and with the three low ticks that precede the first rising edge the low run reaches
RESET_TICKS. (A premise on the host: the block does not check it.)
DESIGN CHOICE (log entry 19): R286 speaks of the interval between two frames only, and leaves open whether anything binds
the FIRST TRANSMIT after reset; here the premise binds it too, with LOW_RUN counted from its reset value 0. Safe: a premise
that asks more of the host proves less. -/
abbrev State.KeepsResetInterval (s : State) : Prop :=
  s.fifo = [] ∧ s.eRun = false ∧ Config.resetTicks ≤ s.lowRun + 3

/-- The invariants of R39 (a) to (f) and (h), that the claimed slot exists (R26), and that nothing is in progress in HALTED
(R250). R39 (g) is about steps: Obligations.StepKeepsTheInvariants states it. -/
abbrev State.Inv (s : State) : Prop :=
  s.fb.toList.length = 25 ∧
  (s.wActive = true → s.life = .ready ∧ s.mState = .idle ∧ s.wPix.toNat ≤ 24 ∧ s.wCh.toNat ≤ 2) ∧
  (s.mState ≠ .idle → s.mapReady = true ∧ s.wActive = false) ∧
  s.fifo.length ≤ s.params.fifoDepth ∧
  (s.life ≠ .ready → s.fifo = [] ∧ s.eRun = false) ∧
  (s.eRun = true → 1 ≤ s.eLeft.toNat ∧ s.eLeft.toNat ≤ 8 ∧ s.eCnt.toNat ≤ Config.cellTicks - 1) ∧
  (∀ w ∈ s.fifo, w.extractLsb' 0 24 = 0) ∧
  (s.mState = .resp → s.idxLat.toNat ≤ 24) ∧
  (s.life = .ready → s.sm < s.params.slots) ∧
  (s.life = .halted → s.mState = .idle)

/-- `n` ticks of the machine. -/
abbrev runTicks (n : Nat) (s : State) : Result := Host.Core.run Sys2Proof.core n s

/-- `rst = 0` in the next `n` ticks. -/
abbrev State.NoReset (s : State) (n : Nat) : Prop := ∀ k < n, (s.inputsAt k).rst = false

/-- The host presents no command in the next `n` ticks. -/
abbrev State.NoCommand (s : State) (n : Nat) : Prop := ∀ k < n, (s.inputsAt k).cmdValid = false

/-- The levels of `dout` during the next `n` ticks, as far as the machine runs (R32, R41). -/
def doutTrace : Nat → State → List Bool
  | 0, _ => []
  | n + 1, s =>
    s.dout ::
      match step s with
      | .next t => doutTrace n t
      | .fault _ => []
      | .refused _ => []

/-- The tick accepts the command `i` (R100). -/
abbrev State.Accepts (s : State) (i : Instr) : Prop := s.accepts = true ∧ decode s.inputs.cmdWord = .command i

/-- The commands of a list, one after the other, as the host issues them with nothing between (R74). -/
def execAll : List Instr → State → Result
  | [], s => .next s
  | i :: rest, s => andThen (exec i s) (execAll rest)

/-- The commands of the driver; the other two are the mapper's (R3). -/
def ofDriver : Instr → Bool
  | .drvInit _ => true
  | .setPixel _ _ _ _ => true
  | .clear => true
  | .transmit => true
  | .mapInit => false
  | .readIndex => false

/-- The tick accepts a TRANSMIT that starts a frame (R160). -/
abbrev State.StartsFrame (s : State) : Prop := s.Accepts .transmit ∧ s.life = .ready

/-- The bit whose cell ends with this tick (R31, R168), if one does. -/
def State.completedBits (s : State) : List Bool :=
  if s.eRun = true ∧ s.eCnt.toNat = Config.cellTicks - 1 then [s.eSr.getLsbD 7] else []

/-- The elements of the driver and the transmitter (R2, R20): FB, LIFE, the handle, walker, FIFO, encoder and the wire
observer, with the parameters. -/
structure DriverSide where
  fb : Vector Pixel 25
  life : Life
  inst : BitVec 1
  sm : Nat
  pin : PinNumber
  wActive : Bool
  wPix : BitVec 5
  wCh : BitVec 2
  fifo : List Word
  eRun : Bool
  eSr : Byte
  eLeft : BitVec 4
  eCnt : BitVec 4
  lowRun : Nat
  params : Config.Params
deriving DecidableEq, Repr

/-- The driver's and transmitter's part of a state. -/
def State.driverSide (s : State) : DriverSide where
  fb := s.fb
  life := s.life
  inst := s.inst
  sm := s.sm
  pin := s.pin
  wActive := s.wActive
  wPix := s.wPix
  wCh := s.wCh
  fifo := s.fifo
  eRun := s.eRun
  eSr := s.eSr
  eLeft := s.eLeft
  eCnt := s.eCnt
  lowRun := s.lowRun
  params := s.params

/-- The elements of the mapper (R2, R20). -/
structure MapperSide where
  mapReady : Bool
  mState : MState
  yLat : Sample
  idxLat : PixIndex
deriving DecidableEq, Repr

/-- The mapper's part of a state. -/
def State.mapperSide (s : State) : MapperSide where
  mapReady := s.mapReady
  mState := s.mState
  yLat := s.yLat
  idxLat := s.idxLat

/-- The two states differ at most in elements that R42 calls unread there: FB, INST, SM and PIN while LIFE is not READY,
the walker's position while it is inactive, the encoder's registers while it is idle, Y_LAT outside M_GAP and M_REQ_X,
IDX_LAT outside M_RESP. -/
abbrev State.SameLive (s t : State) : Prop :=
  s.life = t.life ∧ s.mapReady = t.mapReady ∧ s.errIndex = t.errIndex ∧ s.errIllegal = t.errIllegal ∧
  s.errState = t.errState ∧ s.wActive = t.wActive ∧ s.fifo = t.fifo ∧ s.eRun = t.eRun ∧ s.mState = t.mState ∧
  s.lowRun = t.lowRun ∧ s.params = t.params ∧ s.env = t.env ∧ s.tick = t.tick ∧
  (s.life = .ready → s.fb = t.fb ∧ s.inst = t.inst ∧ s.sm = t.sm ∧ s.pin = t.pin) ∧
  (s.wActive = true → s.wPix = t.wPix ∧ s.wCh = t.wCh) ∧
  (s.eRun = true → s.eSr = t.eSr ∧ s.eLeft = t.eLeft ∧ s.eCnt = t.eCnt) ∧
  (s.mState = .gap ∨ s.mState = .reqX → s.yLat = t.yLat) ∧
  (s.mState = .resp → s.idxLat = t.idxLat)

end Sys2Proof.Machine
end

