-- ==== Sys2Proof/Certificates/Slice0/Obligations.lean ====
section
/-! DEFINITION. The statements about the model, each from rules of spec/; its docstring names them. -/

open Sys2Proof Sys2Proof.Machine

/-! Encoding (30_encoding.md). -/

/-- R97: decode after encode is the identity on the six commands. -/
def Obligations.DecodeOfEncodeIsIdentity : Prop :=
  ∀ i : Instr, i.wellFormed = true → decode (encode i) = .command i

/-- R97: encode after decode is the identity on every legal word. -/
def Obligations.EncodeOfDecodeIsIdentity : Prop :=
  ∀ (w : Word) (i : Instr), decode w = .command i → encode i = w

/-- R92: a word is the command of a row iff (w and mask) = match; the rows are disjoint; a word matching none is illegal. -/
def Obligations.WordsMatchTheOpcodeMap : Prop :=
  (∀ w, (∃ pin, decode w = .command (.drvInit pin)) ↔ w &&& 0xFFFFFFE0#32 = 0x00000000#32) ∧
  (∀ w, (∃ x r g b, decode w = .command (.setPixel x r g b)) ↔ w &&& 0xE0000000#32 = 0x20000000#32) ∧
  (∀ w, decode w = .command .clear ↔ w &&& 0xFFFFFFFF#32 = 0x40000000#32) ∧
  (∀ w, decode w = .command .transmit ↔ w &&& 0xFFFFFFFF#32 = 0x60000000#32) ∧
  (∀ w, decode w = .command .mapInit ↔ w &&& 0xFFFFFFFF#32 = 0x80000000#32) ∧
  (∀ w, decode w = .command .readIndex ↔ w &&& 0xFFFFFFFF#32 = 0xA0000000#32) ∧
  (∀ (w : Word) (i j : Instr), rowMatch i ≠ rowMatch j →
    ¬ (w &&& rowMask i = rowMatch i ∧ w &&& rowMask j = rowMatch j)) ∧
  (∀ w, (∃ why, decode w = .illegal why) ↔ ∀ i : Instr, w &&& rowMask i ≠ rowMatch i)

/-- R95, first sentence: which words are illegal, by opcode and must-be-zero bits. -/
def Obligations.IllegalWordsByField : Prop :=
  ∀ w : Word, (∃ why, decode w = .illegal why) ↔
    (opField w = 0b110#3 ∨ opField w = 0b111#3) ∨
    ((opField w = 0b010#3 ∨ opField w = 0b011#3 ∨ opField w = 0b100#3 ∨ opField w = 0b101#3) ∧ zeroFieldZ w ≠ 0) ∨
    (opField w = 0b000#3 ∧ zeroFieldP w ≠ 0)

/-- R91, R92: words of each row, written out from the formats, and illegal neighbours. -/
def Obligations.SampleWordsDecode : Prop :=
  decode 0x0000001F#32 = .command (.drvInit 31) ∧ decode 0x00000020#32 = .illegal .mustBeZero ∧
  decode 0x2CFF0080#32 = .command (.setPixel 12 255 0 128) ∧ decode 0x3FFFFFFF#32 = .command (.setPixel 31 255 255 255) ∧
  decode 0x40000000#32 = .command .clear ∧ decode 0x60000000#32 = .command .transmit ∧
  decode 0x80000000#32 = .command .mapInit ∧ decode 0xA0000000#32 = .command .readIndex ∧
  decode 0x40000001#32 = .illegal .mustBeZero ∧ decode 0xC0000000#32 = .illegal .reservedOp

/-! Reset and the tick (10_state.md, 30_encoding.md section 4, 70_reset_and_hazards.md). -/

/-- R280, R281, R40: after a tick with rst = 1 every element the spec gives a reset value has it, whatever the state was,
and the outputs are those of R281. -/
def Obligations.ResetTickGivesResetState : Prop :=
  ∀ s : State, s.inputs.rst = true → ∃ t, step s = .next t ∧
    t.life = .uninit ∧ t.mapReady = false ∧ t.errIndex = false ∧ t.errIllegal = false ∧ t.errState = false ∧
    t.wActive = false ∧ t.fifo = [] ∧ t.eRun = false ∧ t.mState = .idle ∧ t.lowRun = 0 ∧
    t.dout = false ∧ t.cmdReady = true ∧ t.rspValid = false ∧ t.adcReq = false ∧ t.adcEn = 0b00#2 ∧
    t.seqClaimed = false ∧ t.status = 0x00#8

/-- R39 holds at reset: of State.reset, and of the reset state for all parameters and inputs. -/
def Obligations.InvariantsHoldAtReset : Prop :=
  State.reset.Inv ∧ ∀ (p : Config.Params) (e : List Inputs) (n : Nat), (State.resetOf p e n).Inv

/-- R41, R100: when the word presented in a tick without reset decodes to a command and cmd_ready = 1, the step is exec of
that command at that state, with around it the encoder's step, the LOW_RUN update and the tick's end, all reading the
state at the start of the tick. (The walker and the mapper sequencer are idle in such a tick, R38.) -/
def Obligations.StepRunsDecodedInstruction : Prop :=
  ∀ (s : State) (i : Instr), s.inputs.rst = false → s.inputs.cmdValid = true → s.cmdReady = true →
    decode s.inputs.cmdWord = .command i →
    ∃ t, exec i s = .next t ∧ step s = .next (advance s (lowRunStep s (encoderStep s t)))

/-- R243: an accepted illegal word records only ERR_ILLEGAL, and the block goes on accepting commands. -/
def Obligations.IllegalWordRecordsOnlyItsFlag : Prop :=
  ∀ (s : State) (why : IllegalWord), s.accepts = true → decode s.inputs.cmdWord = .illegal why →
    ∃ t, t = advance s (lowRunStep s (encoderStep s { s with errIllegal := true })) ∧
      step s = .next t ∧ t.errIllegal = true ∧ t.cmdReady = true

/-- R100: in a tick without reset that accepts nothing, no command step applies: no element that only commands write
changes, no TRANSMIT and no READ_INDEX starts. -/
def Obligations.NothingAcceptedNothingDone : Prop :=
  ∀ s t : State, s.inputs.rst = false → s.accepts = false → step s = .next t →
    t.fb = s.fb ∧ t.life = s.life ∧ t.mapReady = s.mapReady ∧ t.inst = s.inst ∧ t.sm = s.sm ∧ t.pin = s.pin ∧
    t.errIndex = s.errIndex ∧ t.errIllegal = s.errIllegal ∧ t.errState = s.errState ∧
    (s.wActive = false → t.wActive = false ∧ t.wPix = s.wPix ∧ t.wCh = s.wCh) ∧
    (s.mState = .idle → t.mState = .idle ∧ t.yLat = s.yLat ∧ t.idxLat = s.idxLat)

/-- R38: cmd_ready, acceptance, one operation at a time, and nothing accepted once halted. -/
def Obligations.CommandReadyAndAcceptance : Prop :=
  ∀ s : State,
    (s.cmdReady = true ↔ s.life ≠ .halted ∧ s.wActive = false ∧ s.mState = .idle) ∧
    (s.accepts = true ↔ s.inputs.rst = false ∧ s.inputs.cmdValid = true ∧ s.cmdReady = true) ∧
    (s.wActive = true ∨ s.mState ≠ .idle → s.accepts = false) ∧
    (s.life = .halted → s.accepts = false)

/-- R28: the fields of STATUS, bit by bit, BUSY, and that the status output shows it. -/
def Obligations.StatusLayout : Prop :=
  ∀ s : State,
    s.status.getLsbD 0 = decide (s.life = .ready) ∧ s.status.getLsbD 1 = s.mapReady ∧
    s.status.getLsbD 2 = (s.wActive || decide (s.mState ≠ .idle)) ∧ s.status.getLsbD 3 = decide (s.life = .halted) ∧
    s.status.getLsbD 4 = s.errIndex ∧ s.status.getLsbD 5 = s.errIllegal ∧ s.status.getLsbD 6 = s.errState ∧
    s.status.getLsbD 7 = false ∧ s.outputs.status = s.status

/-! DRV_INIT (40_driver_init.md). -/

/-- R120, R121, R123: from UNINIT with a free slot, DRV_INIT holds the claimed slot and the pin, blackens every pixel and
becomes READY; every other element is unchanged. -/
def Obligations.DrvInitClaimsAndClears : Prop :=
  ∀ (s : State) (pin : PinNumber) (c : BitVec 1 × Nat), s.life = .uninit →
    claim s.params.slots s.inputs.seqFree0 s.inputs.seqFree1 = some c →
    exec (.drvInit pin) s = .next { s with
      inst := c.1, sm := c.2, pin := pin, fb := Vector.replicate 25 { r := 0, g := 0, b := 0 }, life := .ready }

/-- R122: with no free slot in either mask LIFE becomes HALTED and nothing else is written; cmd_ready is 0 in that state. (A mask bit
without an entry counts as not free: log entry 11.) -/
def Obligations.DrvInitWithoutSlotHalts : Prop :=
  ∀ (s : State) (pin : PinNumber), s.life = .uninit →
    (∀ k < s.params.slots, s.inputs.seqFree0[k]? ≠ some true) →
    (∀ k < s.params.slots, s.inputs.seqFree1[k]? ≠ some true) →
    exec (.drvInit pin) s = .next { s with life := .halted } ∧ { s with life := Life.halted }.cmdReady = false

/-- R125: a DRV_INIT in READY sets ERR_STATE and changes nothing else; in HALTED nothing is accepted. -/
def Obligations.SecondDrvInitIsWrongState : Prop :=
  ∀ (s : State) (pin : PinNumber),
    (s.life = .ready → exec (.drvInit pin) s = .next { s with errState := true }) ∧
    (s.life = .halted → s.accepts = false)

/-- R121: over masks of SLOTS bits, the claim is the primary's lowest-numbered free slot, else the secondary's, else none. -/
def Obligations.ClaimTakesLowestFreeSlot : Prop :=
  ∀ (n : Nat) (f0 f1 : List Bool), f0.length = n → f1.length = n →
    (∀ k, claim n f0 f1 = some (0, k) ↔ f0[k]? = some true ∧ ∀ j < k, f0[j]? = some false) ∧
    (∀ k, claim n f0 f1 = some (1, k) ↔
      (∀ j < n, f0[j]? = some false) ∧ f1[k]? = some true ∧ ∀ j < k, f1[j]? = some false) ∧
    (claim n f0 f1 = none ↔ (∀ j < n, f0[j]? = some false) ∧ ∀ j < n, f1[j]? = some false)

/-- R124, R37: while READY the ports show the claim (seq_claimed, seq_inst, seq_slot) and the pin (led_pin); and every step
but reset keeps LIFE, the claim, the pin and these four ports as they are. -/
def Obligations.ClaimHeldUntilReset : Prop :=
  (∀ s : State, s.life = .ready →
    s.outputs.seqClaimed = true ∧ s.outputs.seqInst = s.inst ∧ s.outputs.seqSlot = s.sm ∧ s.outputs.ledPin = s.pin ∧
    s.outputs.observed.claimed = some (s.inst, s.sm, s.pin)) ∧
  (∀ s t : State, s.life = .ready → s.inputs.rst = false → step s = .next t →
    t.life = .ready ∧ t.inst = s.inst ∧ t.sm = s.sm ∧ t.pin = s.pin ∧ t.outputs.seqClaimed = true ∧
    t.outputs.seqInst = s.outputs.seqInst ∧ t.outputs.seqSlot = s.outputs.seqSlot ∧ t.outputs.ledPin = s.outputs.ledPin)

/-! SET_PIXEL and CLEAR (41_framebuffer.md). -/

/-- R140, R142: SET_PIXEL in READY with index ≤ 24 stores the three channels exactly; no other pixel and no other element
is written. -/
def Obligations.SetPixelStoresThePixel : Prop :=
  ∀ (s : State) (x : PixIndex) (r g b : Byte), s.life = .ready → x.toNat ≤ 24 →
    ∃ fb, exec (.setPixel x r g b) s = .next { s with fb := fb } ∧
      readPixel fb x = some { r := r, g := g, b := b } ∧ ∀ j, j ≠ x → readPixel fb j = readPixel s.fb j

/-- R141: SET_PIXEL in READY with index 25..31 sets ERR_INDEX, changes nothing else, and the block goes on accepting. -/
def Obligations.SetPixelOutOfRange : Prop :=
  ∀ (s : State) (x : PixIndex) (r g b : Byte), s.life = .ready → 25 ≤ x.toNat →
    exec (.setPixel x r g b) s = .next { s with errIndex := true } ∧
    { s with errIndex := true }.cmdReady = s.cmdReady

/-- R148: SET_PIXEL and CLEAR in UNINIT set ERR_STATE and change nothing else; in HALTED nothing is accepted. -/
def Obligations.FramebufferCommandsBeforeReady : Prop :=
  ∀ s : State,
    (s.life = .uninit →
      (∀ (x : PixIndex) (r g b : Byte), exec (.setPixel x r g b) s = .next { s with errState := true }) ∧
      exec .clear s = .next { s with errState := true }) ∧
    (s.life = .halted → s.accepts = false)

/-- R143: the word 0x40000000 is CLEAR; in READY it makes all 25 pixels (0, 0, 0) and writes nothing else; otherwise it
raises WrongState. -/
def Obligations.ClearBlackensAllPixels : Prop :=
  decode 0x40000000#32 = .command .clear ∧
  ∀ s : State,
    (s.life = .ready → ∃ fb, exec .clear s = .next { s with fb := fb } ∧
      ∀ j : PixIndex, j.toNat ≤ 24 → readPixel fb j = some { r := 0, g := 0, b := 0 }) ∧
    (s.life ≠ .ready → exec .clear s = .next { s with errState := true })

/-- R144: CLEAR leaves the state that SET_PIXEL i, 0, 0, 0 for every i of 0..24, in any order, leaves. -/
def Obligations.ClearEqualsTwentyFiveSetPixels : Prop :=
  ∀ (s : State) (order : List PixIndex), s.life = .ready → (∀ i : PixIndex, i ∈ order ↔ i.toNat ≤ 24) →
    execAll (order.map fun i => .setPixel i 0 0 0) s = exec .clear s

/-- R145 (c): writes to different indices commute; of two writes to one index the later stays. -/
def Obligations.PixelWritesCommuteOrOverwrite : Prop :=
  ∀ (s : State) (x y : PixIndex) (r g b r' g' b' : Byte),
    (x ≠ y → execAll [.setPixel x r g b, .setPixel y r' g' b'] s = execAll [.setPixel y r' g' b', .setPixel x r g b] s) ∧
    execAll [.setPixel x r g b, .setPixel x r' g' b'] s = exec (.setPixel x r' g' b') s

/-- R22, R73: without reset, a step changes the framebuffer only when it accepts DRV_INIT, SET_PIXEL or CLEAR. -/
def Obligations.FramebufferHasOneOwner : Prop :=
  ∀ s t : State, s.inputs.rst = false → step s = .next t → t.fb ≠ s.fb →
    (∃ pin, s.Accepts (.drvInit pin)) ∨ (∃ x r g b, s.Accepts (.setPixel x r g b)) ∨ s.Accepts .clear

/-! TRANSMIT, walker, FIFO and encoder (42_transmit_encoder.md). -/

/-- R160: TRANSMIT in READY starts the walker at (0, 0) and writes nothing else. -/
def Obligations.TransmitStartsTheWalker : Prop :=
  ∀ s : State, s.life = .ready → exec .transmit s = .next { s with wActive := true, wPix := 0, wCh := 0 }

/-- R160: TRANSMIT in UNINIT sets ERR_STATE and changes nothing else. -/
def Obligations.TransmitBeforeReady : Prop :=
  ∀ s : State, s.life = .uninit → exec .transmit s = .next { s with errState := true }

/-- R161, R162, R179, R180: an active walker whose FIFO has room pushes the next word of the frame, exactly one, beside
whatever the encoder pops; it ends with the last word; the framebuffer stays. -/
def Obligations.WalkerPushesTheNextWord : Prop :=
  ∀ s : State, s.Inv → s.inputs.rst = false → s.wActive = true → s.fifo.length < s.params.fifoDepth →
    ∃ t w rest, step s = .next t ∧ s.pendingWords = w :: rest ∧
      t.fifo = (if s.encoderPops then s.fifo.tail else s.fifo) ++ [w] ∧ t.pendingWords = rest ∧
      (t.wActive = true ↔ rest ≠ []) ∧ t.fb = s.fb

/-- R163: while the FIFO is full the walker and with it the operation wait; only the encoder takes a word. -/
def Obligations.WalkerWaitsWhileTheFifoIsFull : Prop :=
  ∀ s : State, s.Inv → s.inputs.rst = false → s.wActive = true → s.params.fifoDepth ≤ s.fifo.length →
    ∃ t, step s = .next t ∧ t.wActive = true ∧ t.wPix = s.wPix ∧ t.wCh = s.wCh ∧ t.fb = s.fb ∧ t.cmdReady = false ∧
      t.fifo = (if s.encoderPops then s.fifo.tail else s.fifo)

/-- R178: the encoder's step, branch by branch, as part of every step without reset; a pop takes the head of the queue, and
the line is still low in the tick in which an idle encoder pops. -/
def Obligations.EncoderStepRule : Prop :=
  ∀ s t : State, s.inputs.rst = false → step s = .next t →
    (s.eRun = true → s.eCnt.toNat < 9 →
      t.eRun = true ∧ t.eSr = s.eSr ∧ t.eLeft = s.eLeft ∧ t.eCnt.toNat = s.eCnt.toNat + 1 ∧ s.encoderPops = false) ∧
    (s.eRun = true → 9 ≤ s.eCnt.toNat → 1 < s.eLeft.toNat →
      t.eRun = true ∧ t.eSr = s.eSr <<< 1 ∧ t.eLeft.toNat = s.eLeft.toNat - 1 ∧ t.eCnt = 0 ∧ s.encoderPops = false) ∧
    (s.eRun = true → 9 ≤ s.eCnt.toNat → s.eLeft.toNat ≤ 1 → ∀ w rest, s.fifo = w :: rest →
      t.eRun = true ∧ t.eSr = w.extractLsb' 24 8 ∧ t.eLeft = 8 ∧ t.eCnt = 0 ∧ s.encoderPops = true) ∧
    (s.eRun = true → 9 ≤ s.eCnt.toNat → s.eLeft.toNat ≤ 1 → s.fifo = [] → t.eRun = false ∧ s.encoderPops = false) ∧
    (s.eRun = false → ∀ w rest, s.fifo = w :: rest →
      t.eRun = true ∧ t.eSr = w.extractLsb' 24 8 ∧ t.eLeft = 8 ∧ t.eCnt = 0 ∧ s.encoderPops = true) ∧
    (s.eRun = false → s.fifo = [] → t.eRun = false ∧ s.encoderPops = false) ∧
    (s.eRun = false → s.dout = false) ∧
    ∃ pushed, t.fifo = (if s.encoderPops then s.fifo.tail else s.fifo) ++ pushed ∧ pushed.length ≤ 1

/-- R180: a pop and a push of one tick both take effect, so the length stays; with FIFO_DEPTH = 1 they never share one. -/
def Obligations.PopAndPushShareATick : Prop :=
  ∀ s : State, s.Inv → s.inputs.rst = false → s.encoderPops = true → s.walkerPushes = true →
    2 ≤ s.params.fifoDepth ∧
    ∃ t v, step s = .next t ∧ walkerByte s.fb s.wPix s.wCh = some v ∧ t.fifo = s.fifo.tail ++ [txWord v] ∧
      t.fifo.length = s.fifo.length

/-- R167 to R170: from the first tick of a word, dout is for 80 ticks the eight cells of its byte, most significant bit
first, each high for TH(bit) ticks and low for the rest, with no gap. -/
def Obligations.WordOnTheWire : Prop :=
  ∀ s : State, s.Inv → s.params.wellFormed = true → s.eRun = true → s.eLeft = 8 → s.eCnt = 0 → s.NoReset 80 →
    doutTrace 80 s = cells s.params (byteBits s.eSr)

/-- R166, R167, R172, R75: nothing the block owes the wire is lost, duplicated or reordered. A step without reset sends the
bit it completes, if it completes one, and a TRANSMIT it accepts appends the bits of the framebuffer as it is then. -/
def Obligations.OwedBitsAreConserved : Prop :=
  ∀ s t : State, s.Inv → s.inputs.rst = false → step s = .next t →
    (¬ s.StartsFrame → s.owedBits = s.completedBits ++ t.owedBits) ∧
    (s.StartsFrame → s.owedBits ++ frameBits s.fb = s.completedBits ++ t.owedBits)

/-- R172: a frame has 600 bits, and bit n is bit 23 − (n mod 24) of (g, r, b) of pixel n div 24. -/
def Obligations.FrameBitPositions : Prop :=
  ∀ fb : Vector Pixel 25, (frameBits fb).length = 600 ∧
    ∀ (n : Nat) (h : n < 600), (frameBits fb)[n]? =
      some ((fb[n / 24].g ++ fb[n / 24].r ++ fb[n / 24].b).getLsbD (23 - n % 24))

/-- R67, R162, R167: a frame has 75 words, green, red, blue for each pixel; their low 24 bits are 0; the bits the encoder
sends of them are the frame's. -/
def Obligations.FrameWordsCarryTheFrame : Prop :=
  ∀ fb : Vector Pixel 25, (frameWords fb).length = Config.frameWordCount ∧
    (∀ (p : Nat) (h : p < 25), (frameWords fb)[3 * p]? = some (fb[p].g ++ 0#24) ∧
      (frameWords fb)[3 * p + 1]? = some (fb[p].r ++ 0#24) ∧ (frameWords fb)[3 * p + 2]? = some (fb[p].b ++ 0#24)) ∧
    (∀ w ∈ frameWords fb, w.extractLsb' 0 24 = 0) ∧
    (frameWords fb).flatMap wordBits = frameBits fb

/-- R165, R163, R294: a TRANSMIT in progress always completes, within 6004 ticks, with no reset in that time, from every
state that meets the invariants. -/
def Obligations.TransmitCompletes : Prop :=
  ∀ s : State, s.Inv → 1 ≤ s.params.fifoDepth → s.wActive = true → s.NoReset 6004 →
    ∃ n t, n ≤ 6004 ∧ runTicks n s = .next t ∧ t.wActive = false ∧ t.fb = s.fb

/-- R181 (c): of a TRANSMIT accepted from a quiescent block, cmd_ready is 0 until it returns in tick
T_ready = 4 + 80 (74 − F), for 1 ≤ F = FIFO_DEPTH ≤ 73. -/
def Obligations.TransmitReadyTime : Prop :=
  ∀ s : State, s.Inv → s.Quiescent → s.StartsFrame → 1 ≤ s.params.fifoDepth → s.params.fifoDepth ≤ 73 →
    s.NoReset 6004 →
    ∀ n, 1 ≤ n → n ≤ 4 + 80 * (74 - s.params.fifoDepth) →
      ∃ t, runTicks n s = .next t ∧ (t.cmdReady = true ↔ n = 4 + 80 * (74 - s.params.fifoDepth))

/-- R172, R181 (a), (d), R182: a TRANSMIT accepted in tick 0 from a quiescent block leaves dout low in ticks 0 to 2, and in
ticks 3 to 6002 puts on it the 600 cells of the framebuffer as it was then, without a gap, for all admitted parameters and
whatever the host does meanwhile short of reset. -/
def Obligations.FrameOnTheWire : Prop :=
  ∀ s : State, s.Inv → s.Quiescent → s.StartsFrame → s.params.wellFormed = true → s.NoReset 6003 →
    doutTrace 6003 s = [false, false, false] ++ cells s.params (frameBits s.fb)

/-- R184 (b), R286: a TRANSMIT accepted with the queue empty and the encoder idle has its first high tick three ticks later,
and the low run before it is then LOW_RUN + 3: it reaches RESET_TICKS iff the host kept the reset interval. (That the
premise binds the first TRANSMIT after reset too is the model's choice: log entry 19.) -/
def Obligations.ResetIntervalIsTheHosts : Prop :=
  ∀ s : State, s.StartsFrame → s.fifo = [] → s.eRun = false → s.params.wellFormed = true → s.NoReset 3 →
    ∃ t, runTicks 3 s = .next t ∧ t.dout = true ∧ t.lowRun = s.lowRun + 3 ∧
      (Config.resetTicks ≤ t.lowRun ↔ s.KeepsResetInterval)

/-- R34, R176: in every step without reset LOW_RUN becomes 0 after a high tick and counts on after a low one, and Latched
begins exactly with the low tick in which an observer of the wire sees the frame boundary and ends only with a high tick,
whatever the block is doing; and no operation reads LOW_RUN: with another value of it the step differs in nothing else. -/
def Obligations.LowRunOnlyObserves : Prop :=
  ∀ s t : State, step s = .next t →
    (s.inputs.rst = false → t.lowRun = (if s.dout then 0 else s.lowRun + 1) ∧
      (¬ s.Latched → (t.Latched ↔ s.dout = false ∧ .boundary ∈ lowTickEvents s.params 0 s.lowRun)) ∧
      (s.Latched → (t.Latched ↔ s.dout = false))) ∧
    ∀ n, ∃ u, step { s with lowRun := n } = .next u ∧ { u with lowRun := 0 } = { t with lowRun := 0 }

/-- R174, R176, R17: a quiescent block left alone stays quiescent with the line low, and its LOW_RUN grows by one a tick, so
that the line is Latched exactly when the low run adds up to RESET_TICKS, and after RESET_TICKS ticks the block is quiescent
and latched. -/
def Obligations.QuietLineLatches : Prop :=
  ∀ (s : State) (n : Nat), s.Quiescent → s.NoReset n → s.NoCommand n →
    ∃ t, runTicks n s = .next t ∧ t.Quiescent ∧ t.dout = false ∧ t.lowRun = s.lowRun + n ∧
      (t.Latched ↔ Config.resetTicks ≤ s.lowRun + n) ∧ (Config.resetTicks ≤ n → t.QuiescentLatched)

/-- R173: the symbols read off the cells of a bit sequence are that sequence, for all admitted pulse lengths. -/
def Obligations.SymbolsReadBack : Prop :=
  ∀ (p : Config.Params) (bits : List Bool) (low : Nat), p.wellFormed = true →
    readWire p 0 low (cells p bits) = bits.map fun b => .pulse (some b)

/-- R177: after a frame of 600 cells and a boundary, LED i shows FB[i], whatever was shown before. (A contract of the LED
chain, an external device; log entry 14.) -/
def Obligations.LedsShowTheFrame : Prop :=
  ∀ (p : Config.Params) (fb : Vector Pixel 25) (low n : Nat) (shown : Option (List Pixel)),
    p.wellFormed = true → Config.resetTicks ≤ n →
    ledsShow [] shown (readWire p 0 low (cells p (frameBits fb) ++ List.replicate n false)) = some fb.toList

/-! The mapper (43_mapper.md). -/

/-- R210: the word 0x80000000 is MAP_INIT; it sets MAP_READY and nothing else, in every state that accepts; adc_en is 0b11
from then on; a second one changes nothing; in HALTED nothing is accepted. -/
def Obligations.MapInitConfiguresTheChannels : Prop :=
  decode 0x80000000#32 = .command .mapInit ∧
  ∀ s : State, exec .mapInit s = .next { s with mapReady := true } ∧ { s with mapReady := true }.adcEn = 0b11#2 ∧
    (s.mapReady = true → exec .mapInit s = .next s) ∧ (s.life = .halted → s.accepts = false)

/-- R211, R222: READ_INDEX with MAP_READY = 1 starts the sequencer in M_REQ_Y and writes nothing else: the first request is
of sensor channel 1. -/
def Obligations.ReadIndexRequestsYFirst : Prop :=
  ∀ s : State, s.mapReady = true → exec .readIndex s = .next { s with mState := .reqY } ∧
    { s with mState := MState.reqY }.adcReq = true ∧ { s with mState := MState.reqY }.adcSel = true

/-- R224: READ_INDEX with MAP_READY = 0 sets ERR_STATE and nothing else: no request, no response, cmd_ready stays 1. -/
def Obligations.ReadIndexUnconfigured : Prop :=
  ∀ s : State, s.mapReady = false → exec .readIndex s = .next { s with errState := true } ∧
    (s.Accepts .readIndex → ∃ t, step s = .next t ∧ t.errState = true ∧ t.adcReq = false ∧ t.rspValid = false ∧
      t.cmdReady = true)

/-- R221: the closed form of MapIndex and its band table (rows by x, columns by y). -/
def Obligations.MapIndexClosedForm : Prop :=
  ∀ x y : Sample,
    (mapIndex x y).toNat = 5 * min 4 (x.toNat / 819) +
      (if min 4 (x.toNat / 819) % 2 = 0 then min 4 ((4095 - y.toNat) / 819) else 4 - min 4 ((4095 - y.toNat) / 819)) ∧
    ([[4, 3, 2, 1, 0], [5, 6, 7, 8, 9], [14, 13, 12, 11, 10], [15, 16, 17, 18, 19], [24, 23, 22, 21, 20]][
        min 4 (x.toNat / 819)]?.bind fun row => row[4 - min 4 ((4095 - y.toNat) / 819)]?) = some (mapIndex x y).toNat

/-- R220: MapIndex is in 0..24 for every pair of samples, and reaches every index. -/
def Obligations.MapIndexIsOntoTheIndices : Prop :=
  (∀ x y : Sample, (mapIndex x y).toNat ≤ 24) ∧ ∀ i : PixIndex, i.toNat ≤ 24 → ∃ x y, mapIndex x y = i

/-- R217, R72, R23: the joystick's clamped row and column are the row and the PHYSICAL column of the LED that MapIndex
names; and every LED of the matrix has its own place, 0 to 4 in both directions. -/
def Obligations.MapIndexLightsThePhysicalColumn : Prop :=
  (∀ x y : Sample, pixelRow (mapIndex x y) = clampFour (scaleToFive x.toNat) ∧
    physicalColumn (mapIndex x y) = clampFour (scaleToFive (Config.adcMax - y.toNat))) ∧
  (∀ i : PixIndex, i.toNat ≤ 24 → pixelRow i ≤ 4 ∧ physicalColumn i ≤ 4 ∧ i.toNat = pixelRow i * 5 + pixelCol i) ∧
  (∀ i j : PixIndex, i.toNat ≤ 24 → j.toNat ≤ 24 → pixelRow i = pixelRow j → physicalColumn i = physicalColumn j → i = j)

/-- R222, R37: the sensor's request ports and rsp_valid, state by state (M_REQ_Y requests channel 1, M_REQ_X channel 0, no
other state requests), and the mapper sequencer, state by state, as part of every step without reset. -/
def Obligations.MapperSequencerRule : Prop :=
  (∀ s : State,
    (s.mState = .idle → s.outputs.adcReq = false ∧ s.outputs.adcSel = false ∧ s.outputs.rspValid = false) ∧
    (s.mState = .reqY → s.outputs.adcReq = true ∧ s.outputs.adcSel = true ∧ s.outputs.rspValid = false) ∧
    (s.mState = .gap → s.outputs.adcReq = false ∧ s.outputs.adcSel = false ∧ s.outputs.rspValid = false) ∧
    (s.mState = .reqX → s.outputs.adcReq = true ∧ s.outputs.adcSel = false ∧ s.outputs.rspValid = false) ∧
    (s.mState = .resp → s.outputs.adcReq = false ∧ s.outputs.adcSel = false ∧ s.outputs.rspValid = true)) ∧
  ∀ s t : State, s.inputs.rst = false → step s = .next t →
    (s.mState = .idle → t.mState = (if s.Accepts .readIndex ∧ s.mapReady = true then .reqY else .idle)) ∧
    (s.mState = .reqY → s.inputs.adcAck = true → t.mState = .gap ∧ t.yLat = s.inputs.adcData) ∧
    (s.mState = .reqY → s.inputs.adcAck = false → t.mState = .reqY) ∧
    (s.mState = .gap → t.mState = .reqX ∧ t.yLat = s.yLat) ∧
    (s.mState = .reqX → s.inputs.adcAck = true → t.mState = .resp ∧ t.idxLat = mapIndex s.inputs.adcData s.yLat) ∧
    (s.mState = .reqX → s.inputs.adcAck = false → t.mState = .reqX ∧ t.yLat = s.yLat) ∧
    (s.mState = .resp → t.mState = .idle)

/-- R211, R212, R222, R223: a READ_INDEX whose sensor lets `n` ticks pass before it delivers `y` for channel 1 and `m`
before it delivers `x` for channel 0 requests channel 1 in ticks 1 to n + 1, nothing in tick n + 2 and channel 0 in ticks
n + 3 to n + m + 3; it puts MapIndex(x, y) on the response port in tick n + m + 4, for that tick only, and can be followed by
the next command in the tick after. -/
def Obligations.ReadIndexDeliversTheIndex : Prop :=
  ∀ (s : State) (n m : Nat) (x y : Sample), s.Accepts .readIndex → s.mapReady = true → s.NoReset (n + m + 5) →
    (∀ k, 1 ≤ k → k ≤ n → (s.inputsAt k).adcAck = false) →
    (s.inputsAt (n + 1)).adcAck = true → (s.inputsAt (n + 1)).adcData = y →
    (∀ k, n + 3 ≤ k → k < n + m + 3 → (s.inputsAt k).adcAck = false) →
    (s.inputsAt (n + m + 3)).adcAck = true → (s.inputsAt (n + m + 3)).adcData = x →
    (∀ k, 1 ≤ k → k < n + m + 4 → ∃ t, runTicks k s = .next t ∧ t.rspValid = false ∧ t.cmdReady = false ∧
      (t.outputs.adcReq = true ↔ k ≠ n + 2) ∧ (t.outputs.adcSel = true ↔ k ≤ n + 1)) ∧
    (∃ t, runTicks (n + m + 4) s = .next t ∧ t.rspValid = true ∧ t.outputs.rspIndex = mapIndex x y ∧
      t.cmdReady = false ∧ t.outputs.adcReq = false) ∧
    (∃ t, runTicks (n + m + 5) s = .next t ∧ t.rspValid = false ∧ t.cmdReady = true ∧ t.outputs.adcReq = false)

/-- R2, R3: the driver and the mapper are independent, but for acceptance, which reads both through cmd_ready (R38).
A driver command writes no element of the mapper, and what it writes and which fault it raises depend on the driver's
elements and the masks of the tick only; a mapper command writes no element of the driver, and what it writes and which
fault it raises depend on the mapper's elements only. In a tick without reset, given what is accepted, each side's next
value depends on its own elements (the driver's also on the masks a command reads, the mapper's also on the sensor's
inputs). -/
def Obligations.DriverAndMapperAreIndependent : Prop :=
  (∀ (i : Instr) (s t : State), exec i s = .next t →
    (ofDriver i = true → t.mapperSide = s.mapperSide) ∧ (ofDriver i = false → t.driverSide = s.driverSide)) ∧
  (∀ (i : Instr) (s s' t t' : State), ofDriver i = true → s.driverSide = s'.driverSide →
    s.inputs.seqFree0 = s'.inputs.seqFree0 → s.inputs.seqFree1 = s'.inputs.seqFree1 →
    exec i s = .next t → exec i s' = .next t' →
    t.driverSide = t'.driverSide ∧ (s.errState = s'.errState → t.errState = t'.errState) ∧
    (s.errIndex = s'.errIndex → t.errIndex = t'.errIndex)) ∧
  (∀ (i : Instr) (s s' t t' : State), ofDriver i = false → s.mapperSide = s'.mapperSide →
    exec i s = .next t → exec i s' = .next t' →
    t.mapperSide = t'.mapperSide ∧ (s.errState = s'.errState → t.errState = t'.errState) ∧
    (s.errIndex = s'.errIndex → t.errIndex = t'.errIndex)) ∧
  (∀ s s' t t' : State, s.inputs.rst = false → s'.inputs.rst = false → s.accepts = s'.accepts →
    (s.accepts = true → s.inputs.cmdWord = s'.inputs.cmdWord) → step s = .next t → step s' = .next t' →
    (s.driverSide = s'.driverSide →
      (s.accepts = true → s.inputs.seqFree0 = s'.inputs.seqFree0 ∧ s.inputs.seqFree1 = s'.inputs.seqFree1) →
      t.driverSide = t'.driverSide) ∧
    (s.mapperSide = s'.mapperSide → s.inputs.adcAck = s'.inputs.adcAck → s.inputs.adcData = s'.inputs.adcData →
      t.mapperSide = t'.mapperSide))

/-- R223: rsp_valid is 1 for one tick, and only a READ_INDEX that received its X sample makes it so. -/
def Obligations.ResponseIsAOneTickPulse : Prop :=
  ∀ s t : State, s.Inv → s.inputs.rst = false → step s = .next t →
    (s.rspValid = true → t.rspValid = false ∧ t.cmdReady = true) ∧
    (t.rspValid = true → s.mState = .reqX ∧ s.inputs.adcAck = true ∧
      t.outputs.rspIndex = mapIndex s.inputs.adcData s.yLat)

/-! Faults and lifecycle (60_exceptions.md). -/

/-- R249, R27: a fault flag that is 1 stays 1, and HALTED stays, in every step without reset; a reset tick clears them. -/
def Obligations.FaultFlagsAreSticky : Prop :=
  ∀ s t : State, step s = .next t →
    (s.inputs.rst = false →
      (s.errIndex = true → t.errIndex = true) ∧ (s.errIllegal = true → t.errIllegal = true) ∧
      (s.errState = true → t.errState = true) ∧ (s.life = .halted → t.life = .halted)) ∧
    (s.inputs.rst = true → t.errIndex = false ∧ t.errIllegal = false ∧ t.errState = false ∧ t.life = .uninit)

/-- R24, R25, R252: without reset, LIFE changes only from UNINIT, by an accepted DRV_INIT, to READY with a claim and to
HALTED without; MAP_READY changes only to 1, by an accepted MAP_INIT. -/
def Obligations.LifecycleTransitions : Prop :=
  ∀ s t : State, s.inputs.rst = false → step s = .next t →
    (t.life ≠ s.life → s.life = .uninit ∧ (∃ pin, s.Accepts (.drvInit pin)) ∧
      ((t.life = .ready ∧ claim s.params.slots s.inputs.seqFree0 s.inputs.seqFree1 ≠ none) ∨
       (t.life = .halted ∧ claim s.params.slots s.inputs.seqFree0 s.inputs.seqFree1 = none))) ∧
    (t.mapReady ≠ s.mapReady → t.mapReady = true ∧ s.Accepts .mapInit)

/-- R250: a halted block stays halted as long as no reset comes, whatever is presented: cmd_ready, dout, seq_claimed and
rsp_valid are 0, and STATUS is FATAL or-ed with bits 1, 4, 5 and 6 as they were; the run has ended in a fault. -/
def Obligations.HaltedUntilReset : Prop :=
  ∀ (s : State) (n : Nat), s.Inv → s.life = .halted → s.NoReset n →
    ∃ t, runTicks n s = .next t ∧ t.EndedInFault ∧ t.cmdReady = false ∧ t.dout = false ∧ t.seqClaimed = false ∧
      t.rspValid = false ∧ t.status = (0b00001000#8 ||| (s.status &&& 0b01110010#8))

/-- R247: one accepted word raises at most one fault; decode is checked first, lifecycle before operand and before
resource. -/
def Obligations.FaultPriority : Prop :=
  (∀ (s : State) (why : IllegalWord), s.accepts = true → decode s.inputs.cmdWord = .illegal why →
    commandStep s = .next (raiseFault .illegalCommand s)) ∧
  (∀ s t : State, commandStep s = .next t →
    (t.errIllegal ≠ s.errIllegal → t.errState = s.errState ∧ t.errIndex = s.errIndex ∧ t.life = s.life) ∧
    (t.errState ≠ s.errState → t.errIllegal = s.errIllegal ∧ t.errIndex = s.errIndex ∧ t.life = s.life) ∧
    (t.errIndex ≠ s.errIndex → t.errIllegal = s.errIllegal ∧ t.errState = s.errState ∧ t.life = s.life)) ∧
  (∀ (s : State) (x : PixIndex) (r g b : Byte), s.life = .uninit → 25 ≤ x.toNat →
    exec (.setPixel x r g b) s = .next (raiseFault .wrongState s)) ∧
  (∀ (s : State) (pin : PinNumber), s.life = .ready →
    claim s.params.slots s.inputs.seqFree0 s.inputs.seqFree1 = none →
    exec (.drvInit pin) s = .next (raiseFault .wrongState s))

/-- R248: faults are precise: a command that newly records a fault changes that record and nothing else. -/
def Obligations.FaultsArePrecise : Prop :=
  ∀ (i : Instr) (s t : State), exec i s = .next t →
    (t.errIndex ≠ s.errIndex → t = { s with errIndex := true }) ∧
    (t.errState ≠ s.errState → t = { s with errState := true }) ∧
    (t.life = .halted → s.life ≠ .halted → t = { s with life := .halted }) ∧
    t.errIllegal = s.errIllegal

/-! The whole machine (10_state.md section 7). -/

/-- R39: every step from a state that meets the invariants ends in one that does, and HALTED is left by reset only. -/
def Obligations.StepKeepsTheInvariants : Prop :=
  ∀ s t : State, s.Inv → step s = .next t →
    t.Inv ∧ (s.life = .halted → s.inputs.rst = false → t.life = .halted)

/-- R245: from every state that meets the invariants the machine goes on; the model's own fault and refusal do not occur. -/
def Obligations.StepNeverStops : Prop :=
  ∀ s : State, s.Inv → ∃ t, step s = .next t

/-- R40, R42: no observable depends on an unspecified element. Two states that differ at most in elements no rule reads
there show the same outputs, and their steps lead to two states that again differ at most so. -/
def Obligations.UnspecifiedElementsAreUnobservable : Prop :=
  ∀ s t s' : State, s.Inv → s.SameLive t → step s = .next s' →
    s.outputs.observed = t.outputs.observed ∧ ∃ t', step t = .next t' ∧ s'.SameLive t'
end

