-- ==== Sys2Proof/Laws/State.lean ====
section
/-! SUPPORT. One lemma per field of State per named operation: what the operation leaves there. With these no later proof
unfolds a record update. (An operation that acts by cases has here the fields it never touches.) -/

namespace Sys2Proof.Machine

@[simp] theorem advance_fb (s t : State) : (advance s t).fb = t.fb := rfl
@[simp] theorem advance_life (s t : State) : (advance s t).life = t.life := rfl
@[simp] theorem advance_mapReady (s t : State) : (advance s t).mapReady = t.mapReady := rfl
@[simp] theorem advance_inst (s t : State) : (advance s t).inst = t.inst := rfl
@[simp] theorem advance_sm (s t : State) : (advance s t).sm = t.sm := rfl
@[simp] theorem advance_pin (s t : State) : (advance s t).pin = t.pin := rfl
@[simp] theorem advance_errIndex (s t : State) : (advance s t).errIndex = t.errIndex := rfl
@[simp] theorem advance_errIllegal (s t : State) : (advance s t).errIllegal = t.errIllegal := rfl
@[simp] theorem advance_errState (s t : State) : (advance s t).errState = t.errState := rfl
@[simp] theorem advance_wActive (s t : State) : (advance s t).wActive = t.wActive := rfl
@[simp] theorem advance_wPix (s t : State) : (advance s t).wPix = t.wPix := rfl
@[simp] theorem advance_wCh (s t : State) : (advance s t).wCh = t.wCh := rfl
@[simp] theorem advance_fifo (s t : State) : (advance s t).fifo = t.fifo := rfl
@[simp] theorem advance_eRun (s t : State) : (advance s t).eRun = t.eRun := rfl
@[simp] theorem advance_eSr (s t : State) : (advance s t).eSr = t.eSr := rfl
@[simp] theorem advance_eLeft (s t : State) : (advance s t).eLeft = t.eLeft := rfl
@[simp] theorem advance_eCnt (s t : State) : (advance s t).eCnt = t.eCnt := rfl
@[simp] theorem advance_mState (s t : State) : (advance s t).mState = t.mState := rfl
@[simp] theorem advance_yLat (s t : State) : (advance s t).yLat = t.yLat := rfl
@[simp] theorem advance_idxLat (s t : State) : (advance s t).idxLat = t.idxLat := rfl
@[simp] theorem advance_lowRun (s t : State) : (advance s t).lowRun = t.lowRun := rfl
@[simp] theorem advance_params (s t : State) : (advance s t).params = t.params := rfl
@[simp] theorem advance_env (s t : State) : (advance s t).env = s.env.tail := rfl
@[simp] theorem advance_tick (s t : State) : (advance s t).tick = s.tick + 1 := rfl

@[simp] theorem writePixel_fb (s : State) (i : PixIndex) (px : Pixel) : (writePixel s i px).fb = s.fb.setIfInBounds i.toNat px := rfl
@[simp] theorem writePixel_life (s : State) (i : PixIndex) (px : Pixel) : (writePixel s i px).life = s.life := rfl
@[simp] theorem writePixel_mapReady (s : State) (i : PixIndex) (px : Pixel) : (writePixel s i px).mapReady = s.mapReady := rfl
@[simp] theorem writePixel_inst (s : State) (i : PixIndex) (px : Pixel) : (writePixel s i px).inst = s.inst := rfl
@[simp] theorem writePixel_sm (s : State) (i : PixIndex) (px : Pixel) : (writePixel s i px).sm = s.sm := rfl
@[simp] theorem writePixel_pin (s : State) (i : PixIndex) (px : Pixel) : (writePixel s i px).pin = s.pin := rfl
@[simp] theorem writePixel_errIndex (s : State) (i : PixIndex) (px : Pixel) : (writePixel s i px).errIndex = s.errIndex := rfl
@[simp] theorem writePixel_errIllegal (s : State) (i : PixIndex) (px : Pixel) : (writePixel s i px).errIllegal = s.errIllegal := rfl
@[simp] theorem writePixel_errState (s : State) (i : PixIndex) (px : Pixel) : (writePixel s i px).errState = s.errState := rfl
@[simp] theorem writePixel_wActive (s : State) (i : PixIndex) (px : Pixel) : (writePixel s i px).wActive = s.wActive := rfl
@[simp] theorem writePixel_wPix (s : State) (i : PixIndex) (px : Pixel) : (writePixel s i px).wPix = s.wPix := rfl
@[simp] theorem writePixel_wCh (s : State) (i : PixIndex) (px : Pixel) : (writePixel s i px).wCh = s.wCh := rfl
@[simp] theorem writePixel_fifo (s : State) (i : PixIndex) (px : Pixel) : (writePixel s i px).fifo = s.fifo := rfl
@[simp] theorem writePixel_eRun (s : State) (i : PixIndex) (px : Pixel) : (writePixel s i px).eRun = s.eRun := rfl
@[simp] theorem writePixel_eSr (s : State) (i : PixIndex) (px : Pixel) : (writePixel s i px).eSr = s.eSr := rfl
@[simp] theorem writePixel_eLeft (s : State) (i : PixIndex) (px : Pixel) : (writePixel s i px).eLeft = s.eLeft := rfl
@[simp] theorem writePixel_eCnt (s : State) (i : PixIndex) (px : Pixel) : (writePixel s i px).eCnt = s.eCnt := rfl
@[simp] theorem writePixel_mState (s : State) (i : PixIndex) (px : Pixel) : (writePixel s i px).mState = s.mState := rfl
@[simp] theorem writePixel_yLat (s : State) (i : PixIndex) (px : Pixel) : (writePixel s i px).yLat = s.yLat := rfl
@[simp] theorem writePixel_idxLat (s : State) (i : PixIndex) (px : Pixel) : (writePixel s i px).idxLat = s.idxLat := rfl
@[simp] theorem writePixel_lowRun (s : State) (i : PixIndex) (px : Pixel) : (writePixel s i px).lowRun = s.lowRun := rfl
@[simp] theorem writePixel_params (s : State) (i : PixIndex) (px : Pixel) : (writePixel s i px).params = s.params := rfl
@[simp] theorem writePixel_env (s : State) (i : PixIndex) (px : Pixel) : (writePixel s i px).env = s.env := rfl
@[simp] theorem writePixel_tick (s : State) (i : PixIndex) (px : Pixel) : (writePixel s i px).tick = s.tick := rfl

@[simp] theorem clearPixels_fb (s : State) : (clearPixels s).fb = Vector.replicate 25 blackPixel := rfl
@[simp] theorem clearPixels_life (s : State) : (clearPixels s).life = s.life := rfl
@[simp] theorem clearPixels_mapReady (s : State) : (clearPixels s).mapReady = s.mapReady := rfl
@[simp] theorem clearPixels_inst (s : State) : (clearPixels s).inst = s.inst := rfl
@[simp] theorem clearPixels_sm (s : State) : (clearPixels s).sm = s.sm := rfl
@[simp] theorem clearPixels_pin (s : State) : (clearPixels s).pin = s.pin := rfl
@[simp] theorem clearPixels_errIndex (s : State) : (clearPixels s).errIndex = s.errIndex := rfl
@[simp] theorem clearPixels_errIllegal (s : State) : (clearPixels s).errIllegal = s.errIllegal := rfl
@[simp] theorem clearPixels_errState (s : State) : (clearPixels s).errState = s.errState := rfl
@[simp] theorem clearPixels_wActive (s : State) : (clearPixels s).wActive = s.wActive := rfl
@[simp] theorem clearPixels_wPix (s : State) : (clearPixels s).wPix = s.wPix := rfl
@[simp] theorem clearPixels_wCh (s : State) : (clearPixels s).wCh = s.wCh := rfl
@[simp] theorem clearPixels_fifo (s : State) : (clearPixels s).fifo = s.fifo := rfl
@[simp] theorem clearPixels_eRun (s : State) : (clearPixels s).eRun = s.eRun := rfl
@[simp] theorem clearPixels_eSr (s : State) : (clearPixels s).eSr = s.eSr := rfl
@[simp] theorem clearPixels_eLeft (s : State) : (clearPixels s).eLeft = s.eLeft := rfl
@[simp] theorem clearPixels_eCnt (s : State) : (clearPixels s).eCnt = s.eCnt := rfl
@[simp] theorem clearPixels_mState (s : State) : (clearPixels s).mState = s.mState := rfl
@[simp] theorem clearPixels_yLat (s : State) : (clearPixels s).yLat = s.yLat := rfl
@[simp] theorem clearPixels_idxLat (s : State) : (clearPixels s).idxLat = s.idxLat := rfl
@[simp] theorem clearPixels_lowRun (s : State) : (clearPixels s).lowRun = s.lowRun := rfl
@[simp] theorem clearPixels_params (s : State) : (clearPixels s).params = s.params := rfl
@[simp] theorem clearPixels_env (s : State) : (clearPixels s).env = s.env := rfl
@[simp] theorem clearPixels_tick (s : State) : (clearPixels s).tick = s.tick := rfl

@[simp] theorem fifoPush_fb (t : State) (w : Word) : (fifoPush t w).fb = t.fb := rfl
@[simp] theorem fifoPush_life (t : State) (w : Word) : (fifoPush t w).life = t.life := rfl
@[simp] theorem fifoPush_mapReady (t : State) (w : Word) : (fifoPush t w).mapReady = t.mapReady := rfl
@[simp] theorem fifoPush_inst (t : State) (w : Word) : (fifoPush t w).inst = t.inst := rfl
@[simp] theorem fifoPush_sm (t : State) (w : Word) : (fifoPush t w).sm = t.sm := rfl
@[simp] theorem fifoPush_pin (t : State) (w : Word) : (fifoPush t w).pin = t.pin := rfl
@[simp] theorem fifoPush_errIndex (t : State) (w : Word) : (fifoPush t w).errIndex = t.errIndex := rfl
@[simp] theorem fifoPush_errIllegal (t : State) (w : Word) : (fifoPush t w).errIllegal = t.errIllegal := rfl
@[simp] theorem fifoPush_errState (t : State) (w : Word) : (fifoPush t w).errState = t.errState := rfl
@[simp] theorem fifoPush_wActive (t : State) (w : Word) : (fifoPush t w).wActive = t.wActive := rfl
@[simp] theorem fifoPush_wPix (t : State) (w : Word) : (fifoPush t w).wPix = t.wPix := rfl
@[simp] theorem fifoPush_wCh (t : State) (w : Word) : (fifoPush t w).wCh = t.wCh := rfl
@[simp] theorem fifoPush_fifo (t : State) (w : Word) : (fifoPush t w).fifo = t.fifo ++ [w] := rfl
@[simp] theorem fifoPush_eRun (t : State) (w : Word) : (fifoPush t w).eRun = t.eRun := rfl
@[simp] theorem fifoPush_eSr (t : State) (w : Word) : (fifoPush t w).eSr = t.eSr := rfl
@[simp] theorem fifoPush_eLeft (t : State) (w : Word) : (fifoPush t w).eLeft = t.eLeft := rfl
@[simp] theorem fifoPush_eCnt (t : State) (w : Word) : (fifoPush t w).eCnt = t.eCnt := rfl
@[simp] theorem fifoPush_mState (t : State) (w : Word) : (fifoPush t w).mState = t.mState := rfl
@[simp] theorem fifoPush_yLat (t : State) (w : Word) : (fifoPush t w).yLat = t.yLat := rfl
@[simp] theorem fifoPush_idxLat (t : State) (w : Word) : (fifoPush t w).idxLat = t.idxLat := rfl
@[simp] theorem fifoPush_lowRun (t : State) (w : Word) : (fifoPush t w).lowRun = t.lowRun := rfl
@[simp] theorem fifoPush_params (t : State) (w : Word) : (fifoPush t w).params = t.params := rfl
@[simp] theorem fifoPush_env (t : State) (w : Word) : (fifoPush t w).env = t.env := rfl
@[simp] theorem fifoPush_tick (t : State) (w : Word) : (fifoPush t w).tick = t.tick := rfl

@[simp] theorem fifoPop_fb (t : State) : (fifoPop t).fb = t.fb := rfl
@[simp] theorem fifoPop_life (t : State) : (fifoPop t).life = t.life := rfl
@[simp] theorem fifoPop_mapReady (t : State) : (fifoPop t).mapReady = t.mapReady := rfl
@[simp] theorem fifoPop_inst (t : State) : (fifoPop t).inst = t.inst := rfl
@[simp] theorem fifoPop_sm (t : State) : (fifoPop t).sm = t.sm := rfl
@[simp] theorem fifoPop_pin (t : State) : (fifoPop t).pin = t.pin := rfl
@[simp] theorem fifoPop_errIndex (t : State) : (fifoPop t).errIndex = t.errIndex := rfl
@[simp] theorem fifoPop_errIllegal (t : State) : (fifoPop t).errIllegal = t.errIllegal := rfl
@[simp] theorem fifoPop_errState (t : State) : (fifoPop t).errState = t.errState := rfl
@[simp] theorem fifoPop_wActive (t : State) : (fifoPop t).wActive = t.wActive := rfl
@[simp] theorem fifoPop_wPix (t : State) : (fifoPop t).wPix = t.wPix := rfl
@[simp] theorem fifoPop_wCh (t : State) : (fifoPop t).wCh = t.wCh := rfl
@[simp] theorem fifoPop_fifo (t : State) : (fifoPop t).fifo = t.fifo.tail := rfl
@[simp] theorem fifoPop_eRun (t : State) : (fifoPop t).eRun = t.eRun := rfl
@[simp] theorem fifoPop_eSr (t : State) : (fifoPop t).eSr = t.eSr := rfl
@[simp] theorem fifoPop_eLeft (t : State) : (fifoPop t).eLeft = t.eLeft := rfl
@[simp] theorem fifoPop_eCnt (t : State) : (fifoPop t).eCnt = t.eCnt := rfl
@[simp] theorem fifoPop_mState (t : State) : (fifoPop t).mState = t.mState := rfl
@[simp] theorem fifoPop_yLat (t : State) : (fifoPop t).yLat = t.yLat := rfl
@[simp] theorem fifoPop_idxLat (t : State) : (fifoPop t).idxLat = t.idxLat := rfl
@[simp] theorem fifoPop_lowRun (t : State) : (fifoPop t).lowRun = t.lowRun := rfl
@[simp] theorem fifoPop_params (t : State) : (fifoPop t).params = t.params := rfl
@[simp] theorem fifoPop_env (t : State) : (fifoPop t).env = t.env := rfl
@[simp] theorem fifoPop_tick (t : State) : (fifoPop t).tick = t.tick := rfl

@[simp] theorem holdSlot_fb (s : State) (c : BitVec 1 × Nat) (p : PinNumber) : (holdSlot s c p).fb = s.fb := rfl
@[simp] theorem holdSlot_life (s : State) (c : BitVec 1 × Nat) (p : PinNumber) : (holdSlot s c p).life = s.life := rfl
@[simp] theorem holdSlot_mapReady (s : State) (c : BitVec 1 × Nat) (p : PinNumber) : (holdSlot s c p).mapReady = s.mapReady := rfl
@[simp] theorem holdSlot_inst (s : State) (c : BitVec 1 × Nat) (p : PinNumber) : (holdSlot s c p).inst = c.1 := rfl
@[simp] theorem holdSlot_sm (s : State) (c : BitVec 1 × Nat) (p : PinNumber) : (holdSlot s c p).sm = c.2 := rfl
@[simp] theorem holdSlot_pin (s : State) (c : BitVec 1 × Nat) (p : PinNumber) : (holdSlot s c p).pin = p := rfl
@[simp] theorem holdSlot_errIndex (s : State) (c : BitVec 1 × Nat) (p : PinNumber) : (holdSlot s c p).errIndex = s.errIndex := rfl
@[simp] theorem holdSlot_errIllegal (s : State) (c : BitVec 1 × Nat) (p : PinNumber) : (holdSlot s c p).errIllegal = s.errIllegal := rfl
@[simp] theorem holdSlot_errState (s : State) (c : BitVec 1 × Nat) (p : PinNumber) : (holdSlot s c p).errState = s.errState := rfl
@[simp] theorem holdSlot_wActive (s : State) (c : BitVec 1 × Nat) (p : PinNumber) : (holdSlot s c p).wActive = s.wActive := rfl
@[simp] theorem holdSlot_wPix (s : State) (c : BitVec 1 × Nat) (p : PinNumber) : (holdSlot s c p).wPix = s.wPix := rfl
@[simp] theorem holdSlot_wCh (s : State) (c : BitVec 1 × Nat) (p : PinNumber) : (holdSlot s c p).wCh = s.wCh := rfl
@[simp] theorem holdSlot_fifo (s : State) (c : BitVec 1 × Nat) (p : PinNumber) : (holdSlot s c p).fifo = s.fifo := rfl
@[simp] theorem holdSlot_eRun (s : State) (c : BitVec 1 × Nat) (p : PinNumber) : (holdSlot s c p).eRun = s.eRun := rfl
@[simp] theorem holdSlot_eSr (s : State) (c : BitVec 1 × Nat) (p : PinNumber) : (holdSlot s c p).eSr = s.eSr := rfl
@[simp] theorem holdSlot_eLeft (s : State) (c : BitVec 1 × Nat) (p : PinNumber) : (holdSlot s c p).eLeft = s.eLeft := rfl
@[simp] theorem holdSlot_eCnt (s : State) (c : BitVec 1 × Nat) (p : PinNumber) : (holdSlot s c p).eCnt = s.eCnt := rfl
@[simp] theorem holdSlot_mState (s : State) (c : BitVec 1 × Nat) (p : PinNumber) : (holdSlot s c p).mState = s.mState := rfl
@[simp] theorem holdSlot_yLat (s : State) (c : BitVec 1 × Nat) (p : PinNumber) : (holdSlot s c p).yLat = s.yLat := rfl
@[simp] theorem holdSlot_idxLat (s : State) (c : BitVec 1 × Nat) (p : PinNumber) : (holdSlot s c p).idxLat = s.idxLat := rfl
@[simp] theorem holdSlot_lowRun (s : State) (c : BitVec 1 × Nat) (p : PinNumber) : (holdSlot s c p).lowRun = s.lowRun := rfl
@[simp] theorem holdSlot_params (s : State) (c : BitVec 1 × Nat) (p : PinNumber) : (holdSlot s c p).params = s.params := rfl
@[simp] theorem holdSlot_env (s : State) (c : BitVec 1 × Nat) (p : PinNumber) : (holdSlot s c p).env = s.env := rfl
@[simp] theorem holdSlot_tick (s : State) (c : BitVec 1 × Nat) (p : PinNumber) : (holdSlot s c p).tick = s.tick := rfl

@[simp] theorem startWalker_fb (s : State) : (startWalker s).fb = s.fb := rfl
@[simp] theorem startWalker_life (s : State) : (startWalker s).life = s.life := rfl
@[simp] theorem startWalker_mapReady (s : State) : (startWalker s).mapReady = s.mapReady := rfl
@[simp] theorem startWalker_inst (s : State) : (startWalker s).inst = s.inst := rfl
@[simp] theorem startWalker_sm (s : State) : (startWalker s).sm = s.sm := rfl
@[simp] theorem startWalker_pin (s : State) : (startWalker s).pin = s.pin := rfl
@[simp] theorem startWalker_errIndex (s : State) : (startWalker s).errIndex = s.errIndex := rfl
@[simp] theorem startWalker_errIllegal (s : State) : (startWalker s).errIllegal = s.errIllegal := rfl
@[simp] theorem startWalker_errState (s : State) : (startWalker s).errState = s.errState := rfl
@[simp] theorem startWalker_wActive (s : State) : (startWalker s).wActive = true := rfl
@[simp] theorem startWalker_wPix (s : State) : (startWalker s).wPix = 0 := rfl
@[simp] theorem startWalker_wCh (s : State) : (startWalker s).wCh = 0 := rfl
@[simp] theorem startWalker_fifo (s : State) : (startWalker s).fifo = s.fifo := rfl
@[simp] theorem startWalker_eRun (s : State) : (startWalker s).eRun = s.eRun := rfl
@[simp] theorem startWalker_eSr (s : State) : (startWalker s).eSr = s.eSr := rfl
@[simp] theorem startWalker_eLeft (s : State) : (startWalker s).eLeft = s.eLeft := rfl
@[simp] theorem startWalker_eCnt (s : State) : (startWalker s).eCnt = s.eCnt := rfl
@[simp] theorem startWalker_mState (s : State) : (startWalker s).mState = s.mState := rfl
@[simp] theorem startWalker_yLat (s : State) : (startWalker s).yLat = s.yLat := rfl
@[simp] theorem startWalker_idxLat (s : State) : (startWalker s).idxLat = s.idxLat := rfl
@[simp] theorem startWalker_lowRun (s : State) : (startWalker s).lowRun = s.lowRun := rfl
@[simp] theorem startWalker_params (s : State) : (startWalker s).params = s.params := rfl
@[simp] theorem startWalker_env (s : State) : (startWalker s).env = s.env := rfl
@[simp] theorem startWalker_tick (s : State) : (startWalker s).tick = s.tick := rfl

@[simp] theorem loadWord_fb (w : Word) (t : State) : (loadWord w t).fb = t.fb := rfl
@[simp] theorem loadWord_life (w : Word) (t : State) : (loadWord w t).life = t.life := rfl
@[simp] theorem loadWord_mapReady (w : Word) (t : State) : (loadWord w t).mapReady = t.mapReady := rfl
@[simp] theorem loadWord_inst (w : Word) (t : State) : (loadWord w t).inst = t.inst := rfl
@[simp] theorem loadWord_sm (w : Word) (t : State) : (loadWord w t).sm = t.sm := rfl
@[simp] theorem loadWord_pin (w : Word) (t : State) : (loadWord w t).pin = t.pin := rfl
@[simp] theorem loadWord_errIndex (w : Word) (t : State) : (loadWord w t).errIndex = t.errIndex := rfl
@[simp] theorem loadWord_errIllegal (w : Word) (t : State) : (loadWord w t).errIllegal = t.errIllegal := rfl
@[simp] theorem loadWord_errState (w : Word) (t : State) : (loadWord w t).errState = t.errState := rfl
@[simp] theorem loadWord_wActive (w : Word) (t : State) : (loadWord w t).wActive = t.wActive := rfl
@[simp] theorem loadWord_wPix (w : Word) (t : State) : (loadWord w t).wPix = t.wPix := rfl
@[simp] theorem loadWord_wCh (w : Word) (t : State) : (loadWord w t).wCh = t.wCh := rfl
@[simp] theorem loadWord_fifo (w : Word) (t : State) : (loadWord w t).fifo = t.fifo.tail := rfl
@[simp] theorem loadWord_eRun (w : Word) (t : State) : (loadWord w t).eRun = t.eRun := rfl
@[simp] theorem loadWord_eSr (w : Word) (t : State) : (loadWord w t).eSr = wordByte w := rfl
@[simp] theorem loadWord_eLeft (w : Word) (t : State) : (loadWord w t).eLeft = 8 := rfl
@[simp] theorem loadWord_eCnt (w : Word) (t : State) : (loadWord w t).eCnt = 0 := rfl
@[simp] theorem loadWord_mState (w : Word) (t : State) : (loadWord w t).mState = t.mState := rfl
@[simp] theorem loadWord_yLat (w : Word) (t : State) : (loadWord w t).yLat = t.yLat := rfl
@[simp] theorem loadWord_idxLat (w : Word) (t : State) : (loadWord w t).idxLat = t.idxLat := rfl
@[simp] theorem loadWord_lowRun (w : Word) (t : State) : (loadWord w t).lowRun = t.lowRun := rfl
@[simp] theorem loadWord_params (w : Word) (t : State) : (loadWord w t).params = t.params := rfl
@[simp] theorem loadWord_env (w : Word) (t : State) : (loadWord w t).env = t.env := rfl
@[simp] theorem loadWord_tick (w : Word) (t : State) : (loadWord w t).tick = t.tick := rfl

@[simp] theorem lowRunStep_fb (s t : State) : (lowRunStep s t).fb = t.fb := rfl
@[simp] theorem lowRunStep_life (s t : State) : (lowRunStep s t).life = t.life := rfl
@[simp] theorem lowRunStep_mapReady (s t : State) : (lowRunStep s t).mapReady = t.mapReady := rfl
@[simp] theorem lowRunStep_inst (s t : State) : (lowRunStep s t).inst = t.inst := rfl
@[simp] theorem lowRunStep_sm (s t : State) : (lowRunStep s t).sm = t.sm := rfl
@[simp] theorem lowRunStep_pin (s t : State) : (lowRunStep s t).pin = t.pin := rfl
@[simp] theorem lowRunStep_errIndex (s t : State) : (lowRunStep s t).errIndex = t.errIndex := rfl
@[simp] theorem lowRunStep_errIllegal (s t : State) : (lowRunStep s t).errIllegal = t.errIllegal := rfl
@[simp] theorem lowRunStep_errState (s t : State) : (lowRunStep s t).errState = t.errState := rfl
@[simp] theorem lowRunStep_wActive (s t : State) : (lowRunStep s t).wActive = t.wActive := rfl
@[simp] theorem lowRunStep_wPix (s t : State) : (lowRunStep s t).wPix = t.wPix := rfl
@[simp] theorem lowRunStep_wCh (s t : State) : (lowRunStep s t).wCh = t.wCh := rfl
@[simp] theorem lowRunStep_fifo (s t : State) : (lowRunStep s t).fifo = t.fifo := rfl
@[simp] theorem lowRunStep_eRun (s t : State) : (lowRunStep s t).eRun = t.eRun := rfl
@[simp] theorem lowRunStep_eSr (s t : State) : (lowRunStep s t).eSr = t.eSr := rfl
@[simp] theorem lowRunStep_eLeft (s t : State) : (lowRunStep s t).eLeft = t.eLeft := rfl
@[simp] theorem lowRunStep_eCnt (s t : State) : (lowRunStep s t).eCnt = t.eCnt := rfl
@[simp] theorem lowRunStep_mState (s t : State) : (lowRunStep s t).mState = t.mState := rfl
@[simp] theorem lowRunStep_yLat (s t : State) : (lowRunStep s t).yLat = t.yLat := rfl
@[simp] theorem lowRunStep_idxLat (s t : State) : (lowRunStep s t).idxLat = t.idxLat := rfl
@[simp] theorem lowRunStep_lowRun (s t : State) : (lowRunStep s t).lowRun = (if s.dout then 0 else s.lowRun + 1) := rfl
@[simp] theorem lowRunStep_params (s t : State) : (lowRunStep s t).params = t.params := rfl
@[simp] theorem lowRunStep_env (s t : State) : (lowRunStep s t).env = t.env := rfl
@[simp] theorem lowRunStep_tick (s t : State) : (lowRunStep s t).tick = t.tick := rfl

@[simp] theorem present_fb (s : State) (w : Word) : (s.present w).fb = s.fb := rfl
@[simp] theorem present_life (s : State) (w : Word) : (s.present w).life = s.life := rfl
@[simp] theorem present_mapReady (s : State) (w : Word) : (s.present w).mapReady = s.mapReady := rfl
@[simp] theorem present_inst (s : State) (w : Word) : (s.present w).inst = s.inst := rfl
@[simp] theorem present_sm (s : State) (w : Word) : (s.present w).sm = s.sm := rfl
@[simp] theorem present_pin (s : State) (w : Word) : (s.present w).pin = s.pin := rfl
@[simp] theorem present_errIndex (s : State) (w : Word) : (s.present w).errIndex = s.errIndex := rfl
@[simp] theorem present_errIllegal (s : State) (w : Word) : (s.present w).errIllegal = s.errIllegal := rfl
@[simp] theorem present_errState (s : State) (w : Word) : (s.present w).errState = s.errState := rfl
@[simp] theorem present_wActive (s : State) (w : Word) : (s.present w).wActive = s.wActive := rfl
@[simp] theorem present_wPix (s : State) (w : Word) : (s.present w).wPix = s.wPix := rfl
@[simp] theorem present_wCh (s : State) (w : Word) : (s.present w).wCh = s.wCh := rfl
@[simp] theorem present_fifo (s : State) (w : Word) : (s.present w).fifo = s.fifo := rfl
@[simp] theorem present_eRun (s : State) (w : Word) : (s.present w).eRun = s.eRun := rfl
@[simp] theorem present_eSr (s : State) (w : Word) : (s.present w).eSr = s.eSr := rfl
@[simp] theorem present_eLeft (s : State) (w : Word) : (s.present w).eLeft = s.eLeft := rfl
@[simp] theorem present_eCnt (s : State) (w : Word) : (s.present w).eCnt = s.eCnt := rfl
@[simp] theorem present_mState (s : State) (w : Word) : (s.present w).mState = s.mState := rfl
@[simp] theorem present_yLat (s : State) (w : Word) : (s.present w).yLat = s.yLat := rfl
@[simp] theorem present_idxLat (s : State) (w : Word) : (s.present w).idxLat = s.idxLat := rfl
@[simp] theorem present_lowRun (s : State) (w : Word) : (s.present w).lowRun = s.lowRun := rfl
@[simp] theorem present_params (s : State) (w : Word) : (s.present w).params = s.params := rfl
@[simp] theorem present_env (s : State) (w : Word) : (s.present w).env = ({ s.inputs with rst := false, cmdValid := true, cmdWord := w } :: s.env.tail) := rfl
@[simp] theorem present_tick (s : State) (w : Word) : (s.present w).tick = s.tick := rfl

@[simp] theorem raiseFault_fb (f : BlockFault) (s : State) : (raiseFault f s).fb = s.fb := by cases f <;> simp [raiseFault]
@[simp] theorem raiseFault_life (f : BlockFault) (s : State) : (raiseFault f s).life = (if f = .noSequencer then .halted else s.life) := by cases f <;> simp [raiseFault]
@[simp] theorem raiseFault_mapReady (f : BlockFault) (s : State) : (raiseFault f s).mapReady = s.mapReady := by cases f <;> simp [raiseFault]
@[simp] theorem raiseFault_inst (f : BlockFault) (s : State) : (raiseFault f s).inst = s.inst := by cases f <;> simp [raiseFault]
@[simp] theorem raiseFault_sm (f : BlockFault) (s : State) : (raiseFault f s).sm = s.sm := by cases f <;> simp [raiseFault]
@[simp] theorem raiseFault_pin (f : BlockFault) (s : State) : (raiseFault f s).pin = s.pin := by cases f <;> simp [raiseFault]
@[simp] theorem raiseFault_errIndex (f : BlockFault) (s : State) : (raiseFault f s).errIndex = (s.errIndex || decide (f = .indexRange)) := by cases f <;> simp [raiseFault]
@[simp] theorem raiseFault_errIllegal (f : BlockFault) (s : State) : (raiseFault f s).errIllegal = (s.errIllegal || decide (f = .illegalCommand)) := by cases f <;> simp [raiseFault]
@[simp] theorem raiseFault_errState (f : BlockFault) (s : State) : (raiseFault f s).errState = (s.errState || decide (f = .wrongState)) := by cases f <;> simp [raiseFault]
@[simp] theorem raiseFault_wActive (f : BlockFault) (s : State) : (raiseFault f s).wActive = s.wActive := by cases f <;> simp [raiseFault]
@[simp] theorem raiseFault_wPix (f : BlockFault) (s : State) : (raiseFault f s).wPix = s.wPix := by cases f <;> simp [raiseFault]
@[simp] theorem raiseFault_wCh (f : BlockFault) (s : State) : (raiseFault f s).wCh = s.wCh := by cases f <;> simp [raiseFault]
@[simp] theorem raiseFault_fifo (f : BlockFault) (s : State) : (raiseFault f s).fifo = s.fifo := by cases f <;> simp [raiseFault]
@[simp] theorem raiseFault_eRun (f : BlockFault) (s : State) : (raiseFault f s).eRun = s.eRun := by cases f <;> simp [raiseFault]
@[simp] theorem raiseFault_eSr (f : BlockFault) (s : State) : (raiseFault f s).eSr = s.eSr := by cases f <;> simp [raiseFault]
@[simp] theorem raiseFault_eLeft (f : BlockFault) (s : State) : (raiseFault f s).eLeft = s.eLeft := by cases f <;> simp [raiseFault]
@[simp] theorem raiseFault_eCnt (f : BlockFault) (s : State) : (raiseFault f s).eCnt = s.eCnt := by cases f <;> simp [raiseFault]
@[simp] theorem raiseFault_mState (f : BlockFault) (s : State) : (raiseFault f s).mState = s.mState := by cases f <;> simp [raiseFault]
@[simp] theorem raiseFault_yLat (f : BlockFault) (s : State) : (raiseFault f s).yLat = s.yLat := by cases f <;> simp [raiseFault]
@[simp] theorem raiseFault_idxLat (f : BlockFault) (s : State) : (raiseFault f s).idxLat = s.idxLat := by cases f <;> simp [raiseFault]
@[simp] theorem raiseFault_lowRun (f : BlockFault) (s : State) : (raiseFault f s).lowRun = s.lowRun := by cases f <;> simp [raiseFault]
@[simp] theorem raiseFault_params (f : BlockFault) (s : State) : (raiseFault f s).params = s.params := by cases f <;> simp [raiseFault]
@[simp] theorem raiseFault_env (f : BlockFault) (s : State) : (raiseFault f s).env = s.env := by cases f <;> simp [raiseFault]
@[simp] theorem raiseFault_tick (f : BlockFault) (s : State) : (raiseFault f s).tick = s.tick := by cases f <;> simp [raiseFault]

@[simp] theorem walkerAdvance_fb (s t : State) : (walkerAdvance s t).fb = t.fb := by unfold walkerAdvance; (repeat' split) <;> rfl
@[simp] theorem walkerAdvance_life (s t : State) : (walkerAdvance s t).life = t.life := by unfold walkerAdvance; (repeat' split) <;> rfl
@[simp] theorem walkerAdvance_mapReady (s t : State) : (walkerAdvance s t).mapReady = t.mapReady := by unfold walkerAdvance; (repeat' split) <;> rfl
@[simp] theorem walkerAdvance_inst (s t : State) : (walkerAdvance s t).inst = t.inst := by unfold walkerAdvance; (repeat' split) <;> rfl
@[simp] theorem walkerAdvance_sm (s t : State) : (walkerAdvance s t).sm = t.sm := by unfold walkerAdvance; (repeat' split) <;> rfl
@[simp] theorem walkerAdvance_pin (s t : State) : (walkerAdvance s t).pin = t.pin := by unfold walkerAdvance; (repeat' split) <;> rfl
@[simp] theorem walkerAdvance_errIndex (s t : State) : (walkerAdvance s t).errIndex = t.errIndex := by unfold walkerAdvance; (repeat' split) <;> rfl
@[simp] theorem walkerAdvance_errIllegal (s t : State) : (walkerAdvance s t).errIllegal = t.errIllegal := by unfold walkerAdvance; (repeat' split) <;> rfl
@[simp] theorem walkerAdvance_errState (s t : State) : (walkerAdvance s t).errState = t.errState := by unfold walkerAdvance; (repeat' split) <;> rfl
@[simp] theorem walkerAdvance_fifo (s t : State) : (walkerAdvance s t).fifo = t.fifo := by unfold walkerAdvance; (repeat' split) <;> rfl
@[simp] theorem walkerAdvance_eRun (s t : State) : (walkerAdvance s t).eRun = t.eRun := by unfold walkerAdvance; (repeat' split) <;> rfl
@[simp] theorem walkerAdvance_eSr (s t : State) : (walkerAdvance s t).eSr = t.eSr := by unfold walkerAdvance; (repeat' split) <;> rfl
@[simp] theorem walkerAdvance_eLeft (s t : State) : (walkerAdvance s t).eLeft = t.eLeft := by unfold walkerAdvance; (repeat' split) <;> rfl
@[simp] theorem walkerAdvance_eCnt (s t : State) : (walkerAdvance s t).eCnt = t.eCnt := by unfold walkerAdvance; (repeat' split) <;> rfl
@[simp] theorem walkerAdvance_mState (s t : State) : (walkerAdvance s t).mState = t.mState := by unfold walkerAdvance; (repeat' split) <;> rfl
@[simp] theorem walkerAdvance_yLat (s t : State) : (walkerAdvance s t).yLat = t.yLat := by unfold walkerAdvance; (repeat' split) <;> rfl
@[simp] theorem walkerAdvance_idxLat (s t : State) : (walkerAdvance s t).idxLat = t.idxLat := by unfold walkerAdvance; (repeat' split) <;> rfl
@[simp] theorem walkerAdvance_lowRun (s t : State) : (walkerAdvance s t).lowRun = t.lowRun := by unfold walkerAdvance; (repeat' split) <;> rfl
@[simp] theorem walkerAdvance_params (s t : State) : (walkerAdvance s t).params = t.params := by unfold walkerAdvance; (repeat' split) <;> rfl
@[simp] theorem walkerAdvance_env (s t : State) : (walkerAdvance s t).env = t.env := by unfold walkerAdvance; (repeat' split) <;> rfl
@[simp] theorem walkerAdvance_tick (s t : State) : (walkerAdvance s t).tick = t.tick := by unfold walkerAdvance; (repeat' split) <;> rfl

@[simp] theorem encoderStep_fb (s t : State) : (encoderStep s t).fb = t.fb := by unfold encoderStep; (repeat' split) <;> rfl
@[simp] theorem encoderStep_life (s t : State) : (encoderStep s t).life = t.life := by unfold encoderStep; (repeat' split) <;> rfl
@[simp] theorem encoderStep_mapReady (s t : State) : (encoderStep s t).mapReady = t.mapReady := by unfold encoderStep; (repeat' split) <;> rfl
@[simp] theorem encoderStep_inst (s t : State) : (encoderStep s t).inst = t.inst := by unfold encoderStep; (repeat' split) <;> rfl
@[simp] theorem encoderStep_sm (s t : State) : (encoderStep s t).sm = t.sm := by unfold encoderStep; (repeat' split) <;> rfl
@[simp] theorem encoderStep_pin (s t : State) : (encoderStep s t).pin = t.pin := by unfold encoderStep; (repeat' split) <;> rfl
@[simp] theorem encoderStep_errIndex (s t : State) : (encoderStep s t).errIndex = t.errIndex := by unfold encoderStep; (repeat' split) <;> rfl
@[simp] theorem encoderStep_errIllegal (s t : State) : (encoderStep s t).errIllegal = t.errIllegal := by unfold encoderStep; (repeat' split) <;> rfl
@[simp] theorem encoderStep_errState (s t : State) : (encoderStep s t).errState = t.errState := by unfold encoderStep; (repeat' split) <;> rfl
@[simp] theorem encoderStep_wActive (s t : State) : (encoderStep s t).wActive = t.wActive := by unfold encoderStep; (repeat' split) <;> rfl
@[simp] theorem encoderStep_wPix (s t : State) : (encoderStep s t).wPix = t.wPix := by unfold encoderStep; (repeat' split) <;> rfl
@[simp] theorem encoderStep_wCh (s t : State) : (encoderStep s t).wCh = t.wCh := by unfold encoderStep; (repeat' split) <;> rfl
@[simp] theorem encoderStep_mState (s t : State) : (encoderStep s t).mState = t.mState := by unfold encoderStep; (repeat' split) <;> rfl
@[simp] theorem encoderStep_yLat (s t : State) : (encoderStep s t).yLat = t.yLat := by unfold encoderStep; (repeat' split) <;> rfl
@[simp] theorem encoderStep_idxLat (s t : State) : (encoderStep s t).idxLat = t.idxLat := by unfold encoderStep; (repeat' split) <;> rfl
@[simp] theorem encoderStep_lowRun (s t : State) : (encoderStep s t).lowRun = t.lowRun := by unfold encoderStep; (repeat' split) <;> rfl
@[simp] theorem encoderStep_params (s t : State) : (encoderStep s t).params = t.params := by unfold encoderStep; (repeat' split) <;> rfl
@[simp] theorem encoderStep_env (s t : State) : (encoderStep s t).env = t.env := by unfold encoderStep; (repeat' split) <;> rfl
@[simp] theorem encoderStep_tick (s t : State) : (encoderStep s t).tick = t.tick := by unfold encoderStep; (repeat' split) <;> rfl

@[simp] theorem mapperStep_fb (s t : State) : (mapperStep s t).fb = t.fb := by unfold mapperStep; (repeat' split) <;> rfl
@[simp] theorem mapperStep_life (s t : State) : (mapperStep s t).life = t.life := by unfold mapperStep; (repeat' split) <;> rfl
@[simp] theorem mapperStep_mapReady (s t : State) : (mapperStep s t).mapReady = t.mapReady := by unfold mapperStep; (repeat' split) <;> rfl
@[simp] theorem mapperStep_inst (s t : State) : (mapperStep s t).inst = t.inst := by unfold mapperStep; (repeat' split) <;> rfl
@[simp] theorem mapperStep_sm (s t : State) : (mapperStep s t).sm = t.sm := by unfold mapperStep; (repeat' split) <;> rfl
@[simp] theorem mapperStep_pin (s t : State) : (mapperStep s t).pin = t.pin := by unfold mapperStep; (repeat' split) <;> rfl
@[simp] theorem mapperStep_errIndex (s t : State) : (mapperStep s t).errIndex = t.errIndex := by unfold mapperStep; (repeat' split) <;> rfl
@[simp] theorem mapperStep_errIllegal (s t : State) : (mapperStep s t).errIllegal = t.errIllegal := by unfold mapperStep; (repeat' split) <;> rfl
@[simp] theorem mapperStep_errState (s t : State) : (mapperStep s t).errState = t.errState := by unfold mapperStep; (repeat' split) <;> rfl
@[simp] theorem mapperStep_wActive (s t : State) : (mapperStep s t).wActive = t.wActive := by unfold mapperStep; (repeat' split) <;> rfl
@[simp] theorem mapperStep_wPix (s t : State) : (mapperStep s t).wPix = t.wPix := by unfold mapperStep; (repeat' split) <;> rfl
@[simp] theorem mapperStep_wCh (s t : State) : (mapperStep s t).wCh = t.wCh := by unfold mapperStep; (repeat' split) <;> rfl
@[simp] theorem mapperStep_fifo (s t : State) : (mapperStep s t).fifo = t.fifo := by unfold mapperStep; (repeat' split) <;> rfl
@[simp] theorem mapperStep_eRun (s t : State) : (mapperStep s t).eRun = t.eRun := by unfold mapperStep; (repeat' split) <;> rfl
@[simp] theorem mapperStep_eSr (s t : State) : (mapperStep s t).eSr = t.eSr := by unfold mapperStep; (repeat' split) <;> rfl
@[simp] theorem mapperStep_eLeft (s t : State) : (mapperStep s t).eLeft = t.eLeft := by unfold mapperStep; (repeat' split) <;> rfl
@[simp] theorem mapperStep_eCnt (s t : State) : (mapperStep s t).eCnt = t.eCnt := by unfold mapperStep; (repeat' split) <;> rfl
@[simp] theorem mapperStep_lowRun (s t : State) : (mapperStep s t).lowRun = t.lowRun := by unfold mapperStep; (repeat' split) <;> rfl
@[simp] theorem mapperStep_params (s t : State) : (mapperStep s t).params = t.params := by unfold mapperStep; (repeat' split) <;> rfl
@[simp] theorem mapperStep_env (s t : State) : (mapperStep s t).env = t.env := by unfold mapperStep; (repeat' split) <;> rfl
@[simp] theorem mapperStep_tick (s t : State) : (mapperStep s t).tick = t.tick := by unfold mapperStep; (repeat' split) <;> rfl

/-! The reset state, field by field where R40 gives a value. -/

@[simp] theorem resetOf_life (p : Config.Params) (e : List Inputs) (n : Nat) : (State.resetOf p e n).life = .uninit := rfl
@[simp] theorem resetOf_mapReady (p : Config.Params) (e : List Inputs) (n : Nat) : (State.resetOf p e n).mapReady = false := rfl
@[simp] theorem resetOf_errIndex (p : Config.Params) (e : List Inputs) (n : Nat) : (State.resetOf p e n).errIndex = false := rfl
@[simp] theorem resetOf_errIllegal (p : Config.Params) (e : List Inputs) (n : Nat) : (State.resetOf p e n).errIllegal = false := rfl
@[simp] theorem resetOf_errState (p : Config.Params) (e : List Inputs) (n : Nat) : (State.resetOf p e n).errState = false := rfl
@[simp] theorem resetOf_wActive (p : Config.Params) (e : List Inputs) (n : Nat) : (State.resetOf p e n).wActive = false := rfl
@[simp] theorem resetOf_fifo (p : Config.Params) (e : List Inputs) (n : Nat) : (State.resetOf p e n).fifo = [] := rfl
@[simp] theorem resetOf_eRun (p : Config.Params) (e : List Inputs) (n : Nat) : (State.resetOf p e n).eRun = false := rfl
@[simp] theorem resetOf_mState (p : Config.Params) (e : List Inputs) (n : Nat) : (State.resetOf p e n).mState = .idle := rfl
@[simp] theorem resetOf_lowRun (p : Config.Params) (e : List Inputs) (n : Nat) : (State.resetOf p e n).lowRun = 0 := rfl
@[simp] theorem resetOf_params (p : Config.Params) (e : List Inputs) (n : Nat) : (State.resetOf p e n).params = p := rfl
@[simp] theorem resetOf_env (p : Config.Params) (e : List Inputs) (n : Nat) : (State.resetOf p e n).env = e := rfl
@[simp] theorem resetOf_tick (p : Config.Params) (e : List Inputs) (n : Nat) : (State.resetOf p e n).tick = n := rfl

/-! The inputs of coming ticks. -/

/-- Two states with the same script and tick number see the same inputs. -/
theorem inputsAt_congr {s t : State} (he : s.env = t.env) (ht : s.tick = t.tick) (k : Nat) :
    s.inputsAt k = t.inputsAt k := by
  unfold State.inputsAt; rw [he, ht]

theorem inputs_congr {s t : State} (he : s.env = t.env) (ht : s.tick = t.tick) : s.inputs = t.inputs :=
  inputsAt_congr he ht 0

/-- After a tick the inputs are those of one tick later. -/
theorem inputsAt_of_tick {s t : State} (he : t.env = s.env.tail) (ht : t.tick = s.tick + 1) (k : Nat) :
    t.inputsAt k = s.inputsAt (k + 1) := by
  unfold State.inputsAt
  rw [he, ht, Nat.add_assoc, Nat.add_comm 1 k]
  cases s.env <;> simp

@[simp] theorem present_inputs (s : State) (w : Word) :
    (s.present w).inputs = { s.inputs with rst := false, cmdValid := true, cmdWord := w } := rfl

/-! `initDriver` writes FB, LIFE and the handle only. -/

@[simp] theorem initDriver_mapReady (c : Option (BitVec 1 × Nat)) (p : PinNumber) (s : State) :
    (initDriver c p s).mapReady = s.mapReady := by cases c <;> rfl
@[simp] theorem initDriver_errIndex (c : Option (BitVec 1 × Nat)) (p : PinNumber) (s : State) :
    (initDriver c p s).errIndex = s.errIndex := by cases c <;> rfl
@[simp] theorem initDriver_errIllegal (c : Option (BitVec 1 × Nat)) (p : PinNumber) (s : State) :
    (initDriver c p s).errIllegal = s.errIllegal := by cases c <;> rfl
@[simp] theorem initDriver_errState (c : Option (BitVec 1 × Nat)) (p : PinNumber) (s : State) :
    (initDriver c p s).errState = s.errState := by cases c <;> rfl
@[simp] theorem initDriver_wActive (c : Option (BitVec 1 × Nat)) (p : PinNumber) (s : State) :
    (initDriver c p s).wActive = s.wActive := by cases c <;> rfl
@[simp] theorem initDriver_wPix (c : Option (BitVec 1 × Nat)) (p : PinNumber) (s : State) :
    (initDriver c p s).wPix = s.wPix := by cases c <;> rfl
@[simp] theorem initDriver_wCh (c : Option (BitVec 1 × Nat)) (p : PinNumber) (s : State) :
    (initDriver c p s).wCh = s.wCh := by cases c <;> rfl
@[simp] theorem initDriver_fifo (c : Option (BitVec 1 × Nat)) (p : PinNumber) (s : State) :
    (initDriver c p s).fifo = s.fifo := by cases c <;> rfl
@[simp] theorem initDriver_eRun (c : Option (BitVec 1 × Nat)) (p : PinNumber) (s : State) :
    (initDriver c p s).eRun = s.eRun := by cases c <;> rfl
@[simp] theorem initDriver_eSr (c : Option (BitVec 1 × Nat)) (p : PinNumber) (s : State) :
    (initDriver c p s).eSr = s.eSr := by cases c <;> rfl
@[simp] theorem initDriver_eLeft (c : Option (BitVec 1 × Nat)) (p : PinNumber) (s : State) :
    (initDriver c p s).eLeft = s.eLeft := by cases c <;> rfl
@[simp] theorem initDriver_eCnt (c : Option (BitVec 1 × Nat)) (p : PinNumber) (s : State) :
    (initDriver c p s).eCnt = s.eCnt := by cases c <;> rfl
@[simp] theorem initDriver_mState (c : Option (BitVec 1 × Nat)) (p : PinNumber) (s : State) :
    (initDriver c p s).mState = s.mState := by cases c <;> rfl
@[simp] theorem initDriver_yLat (c : Option (BitVec 1 × Nat)) (p : PinNumber) (s : State) :
    (initDriver c p s).yLat = s.yLat := by cases c <;> rfl
@[simp] theorem initDriver_idxLat (c : Option (BitVec 1 × Nat)) (p : PinNumber) (s : State) :
    (initDriver c p s).idxLat = s.idxLat := by cases c <;> rfl
@[simp] theorem initDriver_lowRun (c : Option (BitVec 1 × Nat)) (p : PinNumber) (s : State) :
    (initDriver c p s).lowRun = s.lowRun := by cases c <;> rfl
@[simp] theorem initDriver_params (c : Option (BitVec 1 × Nat)) (p : PinNumber) (s : State) :
    (initDriver c p s).params = s.params := by cases c <;> rfl
@[simp] theorem initDriver_env (c : Option (BitVec 1 × Nat)) (p : PinNumber) (s : State) :
    (initDriver c p s).env = s.env := by cases c <;> rfl
@[simp] theorem initDriver_tick (c : Option (BitVec 1 × Nat)) (p : PinNumber) (s : State) :
    (initDriver c p s).tick = s.tick := by cases c <;> rfl

end Sys2Proof.Machine
end

