-- ==== Sys2Proof/Laws/Ops.lean ====
section
/-! SUPPORT. One lemma per shared operation that says everything it can do. -/

namespace Sys2Proof.Machine

/-! The slot claim. -/

theorem firstFree_eq_some {l : List Bool} {k : Nat} :
    firstFree l = some k ↔ l[k]? = some true ∧ ∀ j < k, l[j]? = some false := by
  induction l generalizing k with
  | nil => simp [firstFree]
  | cons b rest ih =>
    cases b with
    | true =>
      cases k with
      | zero => simp [firstFree]
      | succ k =>
        simp only [firstFree, Option.some.injEq, reduceCtorEq, false_iff, not_and]
        intro _ h
        simpa using h 0 (Nat.succ_pos k)
    | false =>
      cases k with
      | zero => simp [firstFree]
      | succ k =>
        simp only [firstFree, Option.map_eq_some_iff, Nat.add_right_cancel_iff, exists_eq_right, ih,
          List.getElem?_cons_succ]
        refine and_congr_right fun _ => ⟨fun h j hj => ?_, fun h j hj => ?_⟩
        · cases j with
          | zero => simp
          | succ j => simpa using h j (Nat.lt_of_succ_lt_succ hj)
        · simpa using h (j + 1) (Nat.succ_lt_succ hj)

theorem firstFree_eq_none {l : List Bool} : firstFree l = none ↔ ∀ b ∈ l, b = false := by
  induction l with
  | nil => simp [firstFree]
  | cons b rest ih => cases b <;> simp [firstFree, ih]

theorem firstFree_take_lt {l : List Bool} {n k : Nat} (h : firstFree (l.take n) = some k) : k < n := by
  have h1 := (firstFree_eq_some.mp h).1
  have h2 := (List.getElem?_eq_some_iff.mp h1).1
  simp at h2
  omega

/-- What the claim can answer: the primary's lowest free slot, or the secondary's when the primary has none, or none. -/
theorem claim_cases (n : Nat) (f0 f1 : List Bool) :
    (∃ k, firstFree (f0.take n) = some k ∧ claim n f0 f1 = some (0, k)) ∨
    (firstFree (f0.take n) = none ∧ ∃ k, firstFree (f1.take n) = some k ∧ claim n f0 f1 = some (1, k)) ∨
    (firstFree (f0.take n) = none ∧ firstFree (f1.take n) = none ∧ claim n f0 f1 = none) := by
  unfold claim
  cases h0 : firstFree (f0.take n) <;> cases h1 : firstFree (f1.take n) <;> simp

/-- A claimed slot exists. -/
theorem claim_slot_lt {n : Nat} {f0 f1 : List Bool} {c : BitVec 1 × Nat} (h : claim n f0 f1 = some c) : c.2 < n := by
  rcases claim_cases n f0 f1 with ⟨k, hk, he⟩ | ⟨-, k, hk, he⟩ | ⟨-, -, he⟩ <;> rw [h] at he
  · cases he; exact firstFree_take_lt hk
  · cases he; exact firstFree_take_lt hk
  · cases he

/-! Pixels. -/

theorem readPixel_of_le {fb : Vector Pixel 25} {i : PixIndex} (h : i.toNat ≤ 24) :
    readPixel fb i = some (fb[i.toNat]'(by omega)) := by
  simp [readPixel, show i.toNat < 25 by omega]

theorem readPixel_eq_none {fb : Vector Pixel 25} {i : PixIndex} : readPixel fb i = none ↔ 25 ≤ i.toNat := by
  simp [readPixel]

/-- Reading back the pixel just written. -/
theorem readPixel_writePixel_same (s : State) {i : PixIndex} (px : Pixel) (h : i.toNat ≤ 24) :
    readPixel (writePixel s i px).fb i = some px := by
  simp [readPixel, show i.toNat < 25 by omega]

/-- Writing one pixel leaves every other as it was. -/
theorem readPixel_writePixel_other (s : State) {i j : PixIndex} (px : Pixel) (h : j ≠ i) :
    readPixel (writePixel s i px).fb j = readPixel s.fb j := by
  have : i.toNat ≠ j.toNat := fun hh => h (BitVec.eq_of_toNat_eq hh.symm)
  simp [readPixel, this]

theorem indexLegal_iff {i : PixIndex} : indexLegal i = true ↔ i.toNat ≤ 24 := by
  simp only [indexLegal, Config.npix, decide_eq_true_eq]; omega

/-! Results. -/

theorem andThen_eq_next {o : Result} {k : State → Result} {u : State} (h : andThen o k = .next u) :
    ∃ t, o = .next t ∧ k t = .next u := by
  cases o with
  | next t => exact ⟨t, rfl, h⟩
  | fault f => cases h
  | refused r => cases h

@[simp] theorem andThen_next (t : State) (k : State → Result) : andThen (.next t) k = k t := rfl

/-! The walker (R179). -/

theorem walkerByte_of_le {fb : Vector Pixel 25} {p : BitVec 5} {c : BitVec 2} (hp : p.toNat ≤ 24) (hc : c.toNat ≤ 2) :
    ∃ v, walkerByte fb p c = some v := by
  have hc' : c = 0 ∨ c = 1 ∨ c = 2 := by
    have := c.isLt
    have h : c.toNat = 0 ∨ c.toNat = 1 ∨ c.toNat = 2 := by omega
    rcases h with h | h | h
    · exact .inl (BitVec.eq_of_toNat_eq h)
    · exact .inr (.inl (BitVec.eq_of_toNat_eq h))
    · exact .inr (.inr (BitVec.eq_of_toNat_eq h))
  unfold walkerByte
  rw [readPixel_of_le hp]
  rcases hc' with rfl | rfl | rfl <;> simp [channelOf]

/-- If the walker's step goes on, it did nothing or pushed the word of its position and moved. -/
theorem walkerStep_cases {s t u : State} (h : walkerStep s t = .next u) :
    (s.walkerPushes = false ∧ u = t) ∨
    (s.walkerPushes = true ∧ ∃ v, walkerByte s.fb s.wPix s.wCh = some v ∧
      u = walkerAdvance s (fifoPush t (txWord v))) := by
  unfold walkerStep at h
  split at h
  · rename_i hp
    split at h
    · rename_i v hv; cases h; exact .inr ⟨hp, v, hv, rfl⟩
    · cases h
  · rename_i hp
    cases h
    exact .inl ⟨by simpa using hp, rfl⟩

/-- The walker's step goes on wherever its position is one of R29's. -/
theorem walkerStep_next {s : State} (t : State)
    (h : s.wActive = true → s.wPix.toNat ≤ 24 ∧ s.wCh.toNat ≤ 2) : ∃ u, walkerStep s t = .next u := by
  unfold walkerStep
  split
  · rename_i hp
    have ha : s.wActive = true := by
      simp only [State.walkerPushes, Bool.and_eq_true] at hp; exact hp.1
    obtain ⟨v, hv⟩ := walkerByte_of_le (fb := s.fb) (h ha).1 (h ha).2
    rw [hv]; exact ⟨_, rfl⟩
  · exact ⟨_, rfl⟩

theorem walkerStep_inactive {s : State} (t : State) (h : s.wActive = false) : walkerStep s t = .next t := by
  simp [walkerStep, State.walkerPushes, h]

theorem walkerPushes_iff {s : State} :
    s.walkerPushes = true ↔ s.wActive = true ∧ s.fifo.length < s.params.fifoDepth := by
  simp [State.walkerPushes, State.fifoHasRoom]

/-- Where the walker stands after a push (R29). -/
theorem walkerAdvance_cases (s t : State) :
    (s.wCh.toNat < 2 ∧ walkerAdvance s t = { t with wCh := s.wCh + 1 }) ∨
    (2 ≤ s.wCh.toNat ∧ s.wPix.toNat < 24 ∧ walkerAdvance s t = { t with wPix := s.wPix + 1, wCh := 0 }) ∨
    (2 ≤ s.wCh.toNat ∧ 24 ≤ s.wPix.toNat ∧ walkerAdvance s t = { t with wActive := false }) := by
  unfold walkerAdvance
  by_cases h1 : s.wCh.toNat < 2
  · exact .inl ⟨h1, by simp [h1]⟩
  · by_cases h2 : s.wPix.toNat < 24
    · exact .inr (.inl ⟨by omega, h2, by simp [h1, h2]⟩)
    · exact .inr (.inr ⟨by omega, by omega, by simp [h1, h2]⟩)

/-! The encoder (R178). -/

/-- The five things the encoder can do in a tick. -/
theorem encoderStep_cases (s t : State) :
    (s.eRun = true ∧ s.eCnt.toNat < 9 ∧ encoderStep s t = { t with eCnt := s.eCnt + 1 }) ∨
    (s.eRun = true ∧ 9 ≤ s.eCnt.toNat ∧ 1 < s.eLeft.toNat ∧
      encoderStep s t = { t with eSr := s.eSr <<< 1, eLeft := s.eLeft - 1, eCnt := 0 }) ∨
    (s.eRun = true ∧ 9 ≤ s.eCnt.toNat ∧ s.eLeft.toNat ≤ 1 ∧ ∃ w rest, s.fifo = w :: rest ∧
      encoderStep s t = loadWord w t) ∨
    (s.eRun = true ∧ 9 ≤ s.eCnt.toNat ∧ s.eLeft.toNat ≤ 1 ∧ s.fifo = [] ∧
      encoderStep s t = { t with eRun := false }) ∨
    (s.eRun = false ∧ (∃ w rest, s.fifo = w :: rest ∧ encoderStep s t = { loadWord w t with eRun := true })) ∨
    (s.eRun = false ∧ s.fifo = [] ∧ encoderStep s t = t) := by
  unfold encoderStep
  simp only [Config.cellTicks]
  cases hr : s.eRun
  · cases hf : s.fifo with
    | nil => simp
    | cons w rest => exact .inr (.inr (.inr (.inr (.inl ⟨rfl, w, rest, rfl, by simp⟩))))
  · by_cases h1 : s.eCnt.toNat < 9
    · exact .inl ⟨rfl, h1, by simp [h1]⟩
    · by_cases h2 : 1 < s.eLeft.toNat
      · exact .inr (.inl ⟨rfl, by omega, h2, by simp [h1, h2]⟩)
      · cases hf : s.fifo with
        | nil => exact .inr (.inr (.inr (.inl ⟨rfl, by omega, by omega, rfl, by simp [h1, h2]⟩)))
        | cons w rest => exact .inr (.inr (.inl ⟨rfl, by omega, by omega, w, rest, rfl, by simp [h1, h2]⟩))

theorem encoderStep_fifo (s t : State) :
    (encoderStep s t).fifo = if s.encoderPops then t.fifo.tail else t.fifo := by
  rcases encoderStep_cases s t with ⟨h1, h2, he⟩ | ⟨h1, h2, h3, he⟩ | ⟨h1, h2, h3, w, r, hf, he⟩ | ⟨h1, h2, h3, hf, he⟩ |
    ⟨h1, w, r, hf, he⟩ | ⟨h1, hf, he⟩ <;> rw [he] <;> simp_all [State.encoderPops, Config.cellTicks]
  intro _ h; have := of_decide_eq_true h; omega

/-! The mapper sequencer (R222). -/

/-- What the mapper sequencer does in a tick, by its state. -/
theorem mapperStep_cases (s t : State) :
    (s.mState = .idle ∧ mapperStep s t = t) ∨
    (s.mState = .reqY ∧ s.inputs.adcAck = true ∧ mapperStep s t = { t with yLat := s.inputs.adcData, mState := .gap }) ∨
    (s.mState = .reqY ∧ s.inputs.adcAck = false ∧ mapperStep s t = t) ∨
    (s.mState = .gap ∧ mapperStep s t = { t with mState := .reqX }) ∨
    (s.mState = .reqX ∧ s.inputs.adcAck = true ∧
      mapperStep s t = { t with idxLat := mapIndex s.inputs.adcData s.yLat, mState := .resp }) ∨
    (s.mState = .reqX ∧ s.inputs.adcAck = false ∧ mapperStep s t = t) ∨
    (s.mState = .resp ∧ mapperStep s t = { t with mState := .idle }) := by
  unfold mapperStep
  cases hm : s.mState <;> cases ha : s.inputs.adcAck <;> simp

/-! Acceptance (R38, R100). -/

theorem cmdReady_iff {s : State} :
    s.cmdReady = true ↔ s.life ≠ .halted ∧ s.wActive = false ∧ s.mState = .idle := by
  simp [State.cmdReady, and_assoc]

theorem accepts_iff {s : State} :
    s.accepts = true ↔ s.inputs.rst = false ∧ s.inputs.cmdValid = true ∧ s.cmdReady = true := by
  simp [State.accepts, and_assoc]

/-! The meanings: none of them stops, and each writes only its own elements. -/

theorem exec_next (i : Instr) (s : State) : ∃ t, exec i s = .next t := by
  cases i <;> simp only [exec, execDrvInit, execSetPixel, execClear, execTransmit, execMapInit, execReadIndex] <;>
    (repeat' split) <;> exact ⟨_, rfl⟩

/-- The ways a command can end (R120, R140, R143, R160, R210, R211). -/
theorem exec_cases {i : Instr} {s t : State} (h : exec i s = .next t) :
    (∃ pin, i = .drvInit pin ∧ s.life = .uninit ∧
      t = initDriver (claim s.params.slots s.inputs.seqFree0 s.inputs.seqFree1) pin s) ∨
    (∃ x r g b, i = .setPixel x r g b ∧ s.life = .ready ∧ x.toNat ≤ 24 ∧ t = writePixel s x ⟨r, g, b⟩) ∨
    (∃ x r g b, i = .setPixel x r g b ∧ s.life = .ready ∧ 25 ≤ x.toNat ∧ t = raiseFault .indexRange s) ∨
    (i = .clear ∧ s.life = .ready ∧ t = clearPixels s) ∨
    (i = .transmit ∧ s.life = .ready ∧ t = startWalker s) ∨
    (i = .mapInit ∧ t = { s with mapReady := true }) ∨
    (i = .readIndex ∧ s.mapReady = true ∧ t = { s with mState := .reqY }) ∨
    (t = raiseFault .wrongState s ∧
      ((∃ pin, i = .drvInit pin ∧ s.life ≠ .uninit) ∨ (∃ x r g b, i = .setPixel x r g b ∧ s.life ≠ .ready) ∨
        (i = .clear ∧ s.life ≠ .ready) ∨ (i = .transmit ∧ s.life ≠ .ready) ∨
        (i = .readIndex ∧ s.mapReady = false))) := by
  cases i with
  | drvInit pin =>
    simp only [exec, execDrvInit] at h
    split at h <;> cases h <;> simp_all
  | setPixel x r g b =>
    simp only [exec, execSetPixel] at h
    split at h
    · split at h
      · rename_i hl hx
        cases h
        exact .inr (.inl ⟨x, r, g, b, rfl, hl, indexLegal_iff.mp hx, rfl⟩)
      · rename_i hl hx
        cases h
        have : 25 ≤ x.toNat := by
          have := mt indexLegal_iff.mpr hx; omega
        exact .inr (.inr (.inl ⟨x, r, g, b, rfl, hl, this, rfl⟩))
    · cases h; simp_all
  | clear => simp only [exec, execClear] at h; split at h <;> cases h <;> simp_all
  | transmit => simp only [exec, execTransmit] at h; split at h <;> cases h <;> simp_all
  | mapInit => simp only [exec, execMapInit] at h; cases h; simp
  | readIndex => simp only [exec, execReadIndex] at h; split at h <;> cases h <;> simp_all

/-- The elements no command step writes: the transmitter's queue and encoder, the mapper's latches, the observer, and the
model's own fields. -/
structure SameAgents (s t : State) : Prop where
  fifo : t.fifo = s.fifo
  eRun : t.eRun = s.eRun
  eSr : t.eSr = s.eSr
  eLeft : t.eLeft = s.eLeft
  eCnt : t.eCnt = s.eCnt
  yLat : t.yLat = s.yLat
  idxLat : t.idxLat = s.idxLat
  lowRun : t.lowRun = s.lowRun
  params : t.params = s.params
  env : t.env = s.env
  tick : t.tick = s.tick

theorem SameAgents.refl (s : State) : SameAgents s s := ⟨rfl, rfl, rfl, rfl, rfl, rfl, rfl, rfl, rfl, rfl, rfl⟩

theorem raiseFault_sameAgents (f : BlockFault) (s : State) : SameAgents s (raiseFault f s) := by
  constructor <;> simp

theorem initDriver_cases (c : Option (BitVec 1 × Nat)) (pin : PinNumber) (s : State) :
    (c = none ∧ initDriver c pin s = raiseFault .noSequencer s) ∨
    (∃ d, c = some d ∧ initDriver c pin s = { clearPixels (holdSlot s d pin) with life := .ready }) := by
  cases c with
  | none => exact .inl ⟨rfl, rfl⟩
  | some d => exact .inr ⟨d, rfl, rfl⟩

theorem exec_sameAgents {i : Instr} {s t : State} (h : exec i s = .next t) : SameAgents s t := by
  rcases exec_cases h with ⟨p, -, -, rfl⟩ | ⟨x, r, g, b, -, -, -, rfl⟩ | ⟨x, r, g, b, -, -, -, rfl⟩ | ⟨-, -, rfl⟩ |
    ⟨-, -, rfl⟩ | ⟨-, rfl⟩ | ⟨-, -, rfl⟩ | ⟨rfl, -⟩
  · rcases initDriver_cases (claim s.params.slots s.inputs.seqFree0 s.inputs.seqFree1) p s with ⟨-, he⟩ | ⟨d, -, he⟩ <;>
      rw [he]
    · exact raiseFault_sameAgents _ _
    · constructor <;> simp
  all_goals first | exact raiseFault_sameAgents _ _ | (constructor <;> simp)

/-! The two sides of the block (R2). -/

theorem driverSide_eq_iff {s t : State} : s.driverSide = t.driverSide ↔
    s.fb = t.fb ∧ s.life = t.life ∧ s.inst = t.inst ∧ s.sm = t.sm ∧ s.pin = t.pin ∧ s.wActive = t.wActive ∧
    s.wPix = t.wPix ∧ s.wCh = t.wCh ∧ s.fifo = t.fifo ∧ s.eRun = t.eRun ∧ s.eSr = t.eSr ∧ s.eLeft = t.eLeft ∧
    s.eCnt = t.eCnt ∧ s.lowRun = t.lowRun ∧ s.params = t.params := by
  simp [State.driverSide]

theorem mapperSide_eq_iff {s t : State} : s.mapperSide = t.mapperSide ↔
    s.mapReady = t.mapReady ∧ s.mState = t.mState ∧ s.yLat = t.yLat ∧ s.idxLat = t.idxLat := by
  simp [State.mapperSide]

/-! The observer of the wire (R176). -/

/-- The boundary is seen in the low tick that makes the low run RESET_TICKS long, and in no other. -/
theorem boundary_mem_lowTickEvents {p : Config.Params} {high low : Nat} :
    .boundary ∈ lowTickEvents p high low ↔ low + 1 = Config.resetTicks := by
  unfold lowTickEvents
  by_cases h : high = 0 <;> by_cases hl : low + 1 = Config.resetTicks <;> simp [h, hl]

end Sys2Proof.Machine
end

