-- ==== Sys2Proof/Laws/PerInstr.lean ====
section
/-! SUPPORT. Claims about every command as syntax: its encoding lies in its own row of the opcode map (R92, R97). -/

namespace Sys2Proof.Laws.OpField

/-- The encoding of `i` has the operation field of its row: `encode i` and-ed with the row's mask is the row's match. -/
def Statement (i : Instr) : Prop := encode i &&& rowMask i = rowMatch i

theorem drvInit (pin : PinNumber) : Statement (.drvInit pin) := by
  unfold Statement encode rowMask rowMatch
  revert pin; decide

theorem setPixel (index : PixIndex) (r g b : Byte) : Statement (.setPixel index r g b) := by
  unfold Statement encode rowMask rowMatch
  apply BitVec.eq_of_getLsbD_eq
  intro k hk
  by_cases h : k < 29
  · have hm : (0xE0000000#32).getLsbD k = false := by revert k; decide
    have ho : (0x20000000#32).getLsbD k = false := by revert k; decide
    rw [BitVec.getLsbD_and, hm, ho, Bool.and_false]
  · have h8 : ¬ k < 8 := by omega
    have e1 : b.getLsbD k = false := BitVec.getLsbD_of_ge _ _ (by omega)
    have e2 : g.getLsbD (k - 8) = false := BitVec.getLsbD_of_ge _ _ (by omega)
    have e3 : r.getLsbD (k - 16) = false := BitVec.getLsbD_of_ge _ _ (by omega)
    have e4 : index.getLsbD (k - 24) = false := BitVec.getLsbD_of_ge _ _ (by omega)
    have hm : (0xE0000000#32).getLsbD k = true := by
      have : k = 29 ∨ k = 30 ∨ k = 31 := by omega
      rcases this with rfl | rfl | rfl <;> rfl
    simp only [BitVec.getLsbD_and, BitVec.getLsbD_or, BitVec.getLsbD_shiftLeft, BitVec.getLsbD_setWidth, hm, e1, e2, e3, e4]
    simp

theorem clear : Statement .clear := by unfold Statement; decide

theorem transmit : Statement .transmit := by unfold Statement; decide

theorem mapInit : Statement .mapInit := by unfold Statement; decide

theorem readIndex : Statement .readIndex := by unfold Statement; decide

end Sys2Proof.Laws.OpField
end

