-- ==== Sys2Proof/Laws/Step.lean ====
section
/-! SUPPORT. What a command step and a whole tick can do, said once: every claim about a step is derived from
`step_cases` or `step_of_no_reset`. -/

namespace Sys2Proof.Machine

/-- The command step never stops. -/
theorem commandStep_next (s : State) : ∃ t, commandStep s = .next t := by
  unfold commandStep
  split
  · split
    · exact exec_next _ _
    · exact ⟨_, rfl⟩
  · exact ⟨_, rfl⟩

/-- What a command step can do (R100). -/
theorem commandStep_cases {s t : State} (h : commandStep s = .next t) :
    (s.accepts = false ∧ t = s) ∨
    (s.accepts = true ∧ ∃ i, decode s.inputs.cmdWord = .command i ∧ exec i s = .next t) ∨
    (s.accepts = true ∧ (∃ why, decode s.inputs.cmdWord = .illegal why) ∧ t = raiseFault .illegalCommand s) := by
  unfold commandStep at h
  split at h
  · rename_i ha
    split at h
    · rename_i i hd; exact .inr (.inl ⟨ha, i, hd, h⟩)
    · rename_i w hd; cases h; exact .inr (.inr ⟨ha, ⟨w, hd⟩, rfl⟩)
  · rename_i ha; cases h; exact .inl ⟨by simpa using ha, rfl⟩

theorem commandStep_not_accepted {s : State} (h : s.accepts = false) : commandStep s = .next s := by
  simp [commandStep, h]

theorem commandStep_accepted {s : State} {i : Instr} (h : s.Accepts i) : commandStep s = exec i s := by
  simp [commandStep, h.1, h.2]

theorem commandStep_sameAgents {s t : State} (h : commandStep s = .next t) : SameAgents s t := by
  rcases commandStep_cases h with ⟨-, rfl⟩ | ⟨-, i, -, he⟩ | ⟨-, -, rfl⟩
  · exact SameAgents.refl _
  · exact exec_sameAgents he
  · exact raiseFault_sameAgents _ _

/-- A tick that accepts a command finds the walker inactive and the mapper idle. -/
theorem idle_of_accepts {s : State} (h : s.accepts = true) :
    s.life ≠ .halted ∧ s.wActive = false ∧ s.mState = .idle := cmdReady_iff.mp (accepts_iff.mp h).2.2

/-- While the walker is active or the mapper busy, the command step does nothing. -/
theorem commandStep_of_walker {s : State} (h : s.wActive = true) : commandStep s = .next s := by
  apply commandStep_not_accepted
  cases ha : s.accepts
  · rfl
  · rw [(idle_of_accepts ha).2.1] at h; cases h

theorem commandStep_of_mapper {s : State} (h : s.mState ≠ .idle) : commandStep s = .next s := by
  apply commandStep_not_accepted
  cases ha : s.accepts
  · rfl
  · exact absurd (idle_of_accepts ha).2.2 h

theorem commandStep_of_halted {s : State} (h : s.life = .halted) : commandStep s = .next s := by
  apply commandStep_not_accepted
  cases ha : s.accepts
  · rfl
  · exact absurd h (idle_of_accepts ha).1

/-- Everything a step can do (R41, R280). -/
theorem step_cases {s u : State} (h : step s = .next u) :
    (s.inputs.rst = true ∧ u = applyReset s) ∨
    (s.inputs.rst = false ∧ ∃ t v, commandStep s = .next t ∧ walkerStep s (encoderStep s t) = .next v ∧
      u = advance s (lowRunStep s (mapperStep s v))) := by
  unfold step clockTick at h
  split at h
  · rename_i hr; cases h; exact .inl ⟨hr, rfl⟩
  · rename_i hr
    obtain ⟨t, ht, h⟩ := andThen_eq_next h
    obtain ⟨v, hv, h⟩ := andThen_eq_next h
    cases h
    exact .inr ⟨by simpa using hr, t, v, ht, hv, rfl⟩

/-- A step without reset, in terms of its parts. -/
theorem step_of_no_reset {s t v : State} (hr : s.inputs.rst = false) (ht : commandStep s = .next t)
    (hv : walkerStep s (encoderStep s t) = .next v) :
    step s = .next (advance s (lowRunStep s (mapperStep s v))) := by
  simp [step, clockTick, hr, ht, agentSteps, hv]

theorem step_of_reset {s : State} (hr : s.inputs.rst = true) : step s = .next (applyReset s) := by
  simp [step, clockTick, hr]

/-- Where the walker's position is one of R29's, a step goes on. -/
theorem step_next {s : State} (h : s.wActive = true → s.wPix.toNat ≤ 24 ∧ s.wCh.toNat ≤ 2) :
    ∃ u, step s = .next u := by
  cases hr : s.inputs.rst
  · obtain ⟨t, ht⟩ := commandStep_next s
    obtain ⟨v, hv⟩ := walkerStep_next (encoderStep s t) h
    exact ⟨_, step_of_no_reset hr ht hv⟩
  · exact ⟨_, step_of_reset hr⟩

/-- Every step counts the tick, uses up its inputs and keeps the parameters. -/
theorem step_env {s u : State} (h : step s = .next u) :
    u.env = s.env.tail ∧ u.tick = s.tick + 1 ∧ u.params = s.params := by
  rcases step_cases h with ⟨-, rfl⟩ | ⟨-, t, v, ht, hv, rfl⟩
  · exact ⟨rfl, rfl, rfl⟩
  · have ha := commandStep_sameAgents ht
    have : v.params = t.params := by
      rcases walkerStep_cases hv with ⟨-, rfl⟩ | ⟨-, w, -, rfl⟩ <;> simp
    simp [this, ha.params]

/-- After a step the coming inputs are those of one tick later. -/
theorem step_inputsAt {s u : State} (h : step s = .next u) (k : Nat) : u.inputsAt k = s.inputsAt (k + 1) :=
  inputsAt_of_tick (step_env h).1 (step_env h).2.1 k

/-- The queue after a tick without reset: the encoder's pop and the walker's push both take effect (R180). -/
theorem walkerStep_fifo {s t v : State} (h : walkerStep s t = .next v) :
    v.fifo = t.fifo ∨ ∃ b, walkerByte s.fb s.wPix s.wCh = some b ∧ v.fifo = t.fifo ++ [txWord b] := by
  rcases walkerStep_cases h with ⟨-, rfl⟩ | ⟨-, b, hb, rfl⟩
  · exact .inl rfl
  · exact .inr ⟨b, hb, by simp⟩

/-- What the encoder and the walker leave alone in a tick. -/
theorem walkerStep_encoderStep_frame {s t v : State} (h : walkerStep s (encoderStep s t) = .next v) :
    v.fb = t.fb ∧ v.life = t.life ∧ v.mapReady = t.mapReady ∧ v.inst = t.inst ∧ v.sm = t.sm ∧ v.pin = t.pin ∧
    v.errIndex = t.errIndex ∧ v.errIllegal = t.errIllegal ∧ v.errState = t.errState ∧ v.mState = t.mState ∧
    v.yLat = t.yLat ∧ v.idxLat = t.idxLat ∧ v.lowRun = t.lowRun ∧ v.params = t.params := by
  rcases walkerStep_cases h with ⟨-, rfl⟩ | ⟨-, w, -, rfl⟩ <;> simp

/-- The elements only a command step writes have, after a tick without reset, the value the command step gave them. -/
theorem step_commandElements {s u : State} (hr : s.inputs.rst = false) (h : step s = .next u) :
    ∃ t v, commandStep s = .next t ∧ walkerStep s (encoderStep s t) = .next v ∧
      u = advance s (lowRunStep s (mapperStep s v)) ∧
      u.fb = t.fb ∧ u.life = t.life ∧ u.mapReady = t.mapReady ∧ u.inst = t.inst ∧ u.sm = t.sm ∧ u.pin = t.pin ∧
      u.errIndex = t.errIndex ∧ u.errIllegal = t.errIllegal ∧ u.errState = t.errState := by
  rcases step_cases h with ⟨h1, -⟩ | ⟨-, t, v, ht, hv, rfl⟩
  · rw [hr] at h1; cases h1
  · have := walkerStep_encoderStep_frame hv
    exact ⟨t, v, ht, hv, rfl, by simp [this]⟩

/-- What a command step writes: nothing, one fault record, or the elements of one command. -/
theorem commandStep_writes {s t : State} (h : commandStep s = .next t) :
    t = s ∨ (s.accepts = true ∧
      (t = raiseFault .illegalCommand s ∨ t = raiseFault .indexRange s ∨ t = raiseFault .wrongState s ∨
        (∃ pin, s.Accepts (.drvInit pin) ∧ s.life = .uninit ∧
          t = initDriver (claim s.params.slots s.inputs.seqFree0 s.inputs.seqFree1) pin s) ∨
        (∃ x r g b, s.Accepts (.setPixel x r g b) ∧ s.life = .ready ∧ x.toNat ≤ 24 ∧ t = writePixel s x ⟨r, g, b⟩) ∨
        (s.Accepts .clear ∧ s.life = .ready ∧ t = clearPixels s) ∨
        (s.Accepts .transmit ∧ s.life = .ready ∧ t = startWalker s) ∨
        (s.Accepts .mapInit ∧ t = { s with mapReady := true }) ∨
        (s.Accepts .readIndex ∧ s.mapReady = true ∧ t = { s with mState := .reqY }))) := by
  rcases commandStep_cases h with ⟨-, rfl⟩ | ⟨ha, i, hd, he⟩ | ⟨ha, -, rfl⟩
  · exact .inl rfl
  · refine .inr ⟨ha, ?_⟩
    rcases exec_cases he with ⟨p, rfl, hl, rfl⟩ | ⟨x, r, g, b, rfl, hl, hx, rfl⟩ | ⟨x, r, g, b, rfl, hl, hx, rfl⟩ |
      ⟨rfl, hl, rfl⟩ | ⟨rfl, hl, rfl⟩ | ⟨rfl, rfl⟩ | ⟨rfl, hl, rfl⟩ | ⟨rfl, -⟩
    · exact .inr (.inr (.inr (.inl ⟨p, ⟨ha, hd⟩, hl, rfl⟩)))
    · exact .inr (.inr (.inr (.inr (.inl ⟨x, r, g, b, ⟨ha, hd⟩, hl, hx, rfl⟩))))
    · exact .inr (.inl rfl)
    · exact .inr (.inr (.inr (.inr (.inr (.inl ⟨⟨ha, hd⟩, hl, rfl⟩)))))
    · exact .inr (.inr (.inr (.inr (.inr (.inr (.inl ⟨⟨ha, hd⟩, hl, rfl⟩))))))
    · exact .inr (.inr (.inr (.inr (.inr (.inr (.inr (.inl ⟨⟨ha, hd⟩, rfl⟩)))))))
    · exact .inr (.inr (.inr (.inr (.inr (.inr (.inr (.inr ⟨⟨ha, hd⟩, hl, rfl⟩)))))))
    · exact .inr (.inr (.inl rfl))
  · exact .inr ⟨ha, .inl rfl⟩

/-- The encoder's registers after a tick without reset are those its step gave. -/
theorem step_encoder {s u : State} (hr : s.inputs.rst = false) (h : step s = .next u) :
    ∃ t, SameAgents s t ∧ commandStep s = .next t ∧ u.eRun = (encoderStep s t).eRun ∧
      u.eSr = (encoderStep s t).eSr ∧ u.eLeft = (encoderStep s t).eLeft ∧ u.eCnt = (encoderStep s t).eCnt := by
  obtain ⟨t, v, ht, hv, rfl, -⟩ := step_commandElements hr h
  refine ⟨t, commandStep_sameAgents ht, ht, ?_⟩
  rcases walkerStep_cases hv with ⟨-, rfl⟩ | ⟨-, w, -, rfl⟩ <;> simp

/-- The queue after a tick without reset: the pop takes the head, the push appends at the tail (R180). -/
theorem step_fifo {s u : State} (hr : s.inputs.rst = false) (h : step s = .next u) :
    u.fifo = (if s.encoderPops then s.fifo.tail else s.fifo) ++
      (if s.walkerPushes then
        (match walkerByte s.fb s.wPix s.wCh with
        | some v => [txWord v]
        | none => [])
      else []) := by
  obtain ⟨t, v, ht, hv, rfl, -⟩ := step_commandElements hr h
  have ha := commandStep_sameAgents ht
  rcases walkerStep_cases hv with ⟨hp, rfl⟩ | ⟨hp, w, hw, rfl⟩
  · simp [hp, encoderStep_fifo, ha.fifo]
  · simp [hp, hw, encoderStep_fifo, ha.fifo]

/-! Runs of several ticks. -/

theorem runTicks_succ {n : Nat} {s t : State} (h : step s = .next t) : runTicks (n + 1) s = runTicks n t := by
  have hc : core.step s = .next t := h
  show Host.Core.run core (n + 1) s = Host.Core.run core n t
  simp only [Host.Core.run, hc]

theorem doutTrace_succ {n : Nat} {s t : State} (h : step s = .next t) :
    doutTrace (n + 1) s = s.dout :: doutTrace n t := by
  simp only [doutTrace, h]

/-- No reset in `n + 1` ticks: none now and none in the `n` ticks after the step. -/
theorem noReset_of_step {s t : State} {n : Nat} (h : step s = .next t) (hr : s.NoReset (n + 1)) :
    s.inputs.rst = false ∧ t.NoReset n := by
  refine ⟨hr 0 (by omega), fun k hk => ?_⟩
  rw [step_inputsAt h]; exact hr (k + 1) (by omega)

/-- No command in `n + 1` ticks: none now and none in the `n` ticks after the step. -/
theorem noCommand_of_step {s t : State} {n : Nat} (h : step s = .next t) (hc : s.NoCommand (n + 1)) :
    s.inputs.cmdValid = false ∧ t.NoCommand n := by
  refine ⟨hc 0 (by omega), fun k hk => ?_⟩
  rw [step_inputsAt h]; exact hc (k + 1) (by omega)

end Sys2Proof.Machine
end

