-- ==== Sys2Proof/Tests/Slice0.lean ====
section
/-! SUPPORT. The model's own tests: expected results are the spec's (95_test_vectors.md, and the tables of the rules named),
one step at most each; and for every obligation with hypotheses a witness that meets them all together. -/

namespace Sys2Proof.Tests

open Sys2Proof.Machine

/-! Small states. -/

/-- A tick in which the host presents nothing; all slots are free, the sensor is silent. -/
def idleTick : Inputs where
  rst := false
  cmdValid := false
  cmdWord := 0
  seqFree0 := [true, true, true, true]
  seqFree1 := [true, true, true, true]
  adcAck := false
  adcData := 0

/-- A tick in which the host presents `w`. -/
def hostTick (w : Word) : Inputs := { idleTick with cmdValid := true, cmdWord := w }

/-- A tick in which the host presents `w` and the masks of free slots are as given. -/
def claimTick (w : Word) (f0 f1 : List Bool) : Inputs := { hostTick w with seqFree0 := f0, seqFree1 := f1 }

/-- A tick in which the sensor delivers `v`. -/
def sensorTick (v : Sample) : Inputs := { idleTick with adcAck := true, adcData := v }

/-- A reset tick in which a command is presented too. -/
def resetTick : Inputs := { hostTick 0x80000000 with rst := true }

/-- After reset. -/
def fresh (env : List Inputs) : State := State.resetOf Config.Params.default env 0

/-- After a successful DRV_INIT 7: FB black but FB[3] = (1, 2, 3) (start state of 95_test_vectors.md 2.3). -/
def ready (env : List Inputs) : State :=
  writePixel { fresh env with life := .ready, pin := 7 } 3 { r := 1, g := 2, b := 3 }

/-- A block whose DRV_INIT found no slot. -/
def halted (env : List Inputs) : State := { fresh env with life := .halted, mapReady := true, errState := true }

/-- A TRANSMIT in progress at walker position (p, c) over a queue of `n` words. -/
def walking (p : BitVec 5) (c : BitVec 2) (n : Nat) (env : List Inputs) : State :=
  { ready env with wActive := true, wPix := p, wCh := c, fifo := List.replicate n 0x55000000 }

/-- The encoder inside a word, `left` bits to go, in tick `cnt` of the cell. -/
def sending (sr : Byte) (left cnt : BitVec 4) (s : State) : State :=
  { s with eRun := true, eSr := sr, eLeft := left, eCnt := cnt }

/-- The mapper configured, in sequencer state `m`. -/
def mapping (m : MState) (env : List Inputs) : State := { ready env with mapReady := true, mState := m, yLat := 2048 }

/-- The state one step later, where the step goes on. -/
def after (s : State) : State :=
  match step s with
  | .next t => t
  | .fault _ => s
  | .refused _ => s

/-- The state a command leaves, where it goes on. -/
def done (i : Instr) (s : State) : State :=
  match exec i s with
  | .next t => t
  | .fault _ => s
  | .refused _ => s

/-- The state after the command step. -/
def commanded (s : State) : State :=
  match commandStep s with
  | .next t => t
  | .fault _ => s
  | .refused _ => s

/-- Did the step end in a next state? -/
def goesOn (r : Result) : Bool :=
  match r with
  | .next _ => true
  | .fault _ => false
  | .refused _ => false

theorem goesOn_iff {r : Result} : goesOn r = true ↔ ∃ t, r = .next t := by
  cases r <;> simp [goesOn]

/-! The small states meet the invariants, whatever inputs come. -/

theorem fresh_inv (e : List Inputs) : (fresh e).Inv := by simp [State.Inv, fresh, State.resetOf]

theorem halted_inv (e : List Inputs) : (halted e).Inv := by simp [State.Inv, halted, fresh, State.resetOf]

theorem ready_inv (e : List Inputs) : (ready e).Inv := by
  simp [State.Inv, ready, fresh, State.resetOf, writePixel, Config.Params.default]

theorem walking_inv {p : BitVec 5} {c : BitVec 2} {n : Nat} (e : List Inputs) (hp : p.toNat ≤ 24) (hc : c.toNat ≤ 2)
    (hn : n ≤ 4) : (walking p c n e).Inv := by
  simp [State.Inv, walking, ready, fresh, State.resetOf, writePixel, Config.Params.default, hp, hc, hn]

theorem sending_inv {s : State} {sr : Byte} {left cnt : BitVec 4} (h : s.Inv) (hl : s.life = .ready)
    (h1 : 1 ≤ left.toNat) (h8 : left.toNat ≤ 8) (h9 : cnt.toNat ≤ 9) : (sending sr left cnt s).Inv := by
  obtain ⟨a, b, c, d, -, -, g, i, j, k⟩ := h
  exact ⟨a, b, c, d, fun hn => absurd hl hn, fun _ => ⟨h1, h8, h9⟩, g, i, j, k⟩

theorem mapping_inv {m : MState} (e : List Inputs) : (mapping m e).Inv := by
  simp [State.Inv, mapping, ready, fresh, State.resetOf, writePixel, Config.Params.default]

theorem noReset_of_env {s : State} {n : Nat} (hl : n ≤ s.env.length) (h : ∀ i ∈ s.env, i.rst = false) : s.NoReset n := by
  intro k hk
  have hk' : k < s.env.length := by omega
  simp [State.inputsAt, hk', h _ (List.getElem_mem hk')]

theorem noCommand_of_env {s : State} {n : Nat} (hl : n ≤ s.env.length) (h : ∀ i ∈ s.env, i.cmdValid = false) :
    s.NoCommand n := by
  intro k hk
  have hk' : k < s.env.length := by omega
  simp [State.inputsAt, hk', h _ (List.getElem_mem hk')]

theorem idle_noReset (n : Nat) : (ready (List.replicate n idleTick)).NoReset n :=
  noReset_of_env (by simp [ready, fresh, writePixel, State.resetOf])
    (by simp [ready, fresh, writePixel, State.resetOf, idleTick])

theorem idle_noCommand (n : Nat) : (ready (List.replicate n idleTick)).NoCommand n :=
  noCommand_of_env (by simp [ready, fresh, writePixel, State.resetOf])
    (by simp [ready, fresh, writePixel, State.resetOf, idleTick])

/-- A ready, quiescent block to which the host presents TRANSMIT, with `n` idle ticks after it. -/
def framing (n : Nat) : State := ready (hostTick 0x60000000 :: List.replicate n idleTick)

theorem framing_noReset (n : Nat) : (framing n).NoReset (n + 1) :=
  noReset_of_env (by simp [framing, ready, fresh, writePixel, State.resetOf])
    (by simp [framing, ready, fresh, writePixel, State.resetOf, hostTick, idleTick])

theorem framing_depth (n : Nat) : 1 ≤ (framing n).params.fifoDepth ∧ (framing n).params.fifoDepth ≤ 73 := by
  simp [framing, ready, fresh, writePixel, State.resetOf, Config.Params.default]

theorem framing_params (n : Nat) : (framing n).params.wellFormed = true := rfl

theorem framing_startsFrame (n : Nat) : (framing n).StartsFrame :=
  ⟨⟨rfl, show decode 0x60000000#32 = _ by decide⟩, rfl⟩

/-! Config and WellFormed. -/

theorem test_config_constants :
    Config.npix = Config.rows * Config.cols ∧ Config.frameWordCount = 3 * Config.npix ∧
    Config.cellTicks * Config.tickNs = Config.cellNs ∧ Config.bitRateHz * Config.cellNs = 1000000000 ∧
    Config.wordTicks = 8 * Config.cellTicks ∧ Config.frameTicks = 600 * Config.cellTicks ∧
    Config.resetTicks * Config.tickNs = Config.resetNs ∧ Config.Params.default.drainTicks = 400 ∧
    Config.Params.default.slotBits = 2 := by decide

theorem test_params_default_wellFormed : Config.Params.default.wellFormed = true := by decide

theorem test_params_t0h_zero_refused : { Config.Params.default with t0hTicks := 0 }.wellFormed = false := by decide
theorem test_params_equal_pulses_refused : { Config.Params.default with t1hTicks := 2 }.wellFormed = false := by decide
theorem test_params_t1h_whole_cell_refused : { Config.Params.default with t1hTicks := 10 }.wellFormed = false := by decide
theorem test_params_no_fifo_refused : { Config.Params.default with fifoDepth := 0 }.wellFormed = false := by decide
theorem test_params_no_slots_refused : { Config.Params.default with slots := 0 }.wellFormed = false := by decide

/-- U2: no command is ill-formed; an index of 31 has an encoding. -/
theorem test_instr_wellFormed : (Instr.setPixel 31 255 255 255).wellFormed = true := by decide

/-! Decoding: words written out bit by bit (R91, R92; vectors V-ENC). -/

theorem test_decode_drvInit :
    decode 0b000_000000000000000000000000_00111#32 = .command (.drvInit 7) ∧
    decode 0b000_000000000000000000000000_11111#32 = .command (.drvInit 31) ∧
    decode 0b000_000000000000000000000001_00000#32 = .illegal .mustBeZero ∧
    decode 0b000_100000000000000000000000_00000#32 = .illegal .mustBeZero := by decide

theorem test_decode_setPixel :
    decode 0b001_01100_11111111_00000000_10000000#32 = .command (.setPixel 12 255 0 128) ∧
    decode 0b001_00101_00000000_00100000_00000000#32 = .command (.setPixel 5 0 32 0) ∧
    decode 0b001_11001_00000000_00000000_00000000#32 = .command (.setPixel 25 0 0 0) := by decide

theorem test_decode_clear :
    decode 0b010_00000000000000000000000000000#32 = .command .clear ∧
    decode 0b010_00000000000000000000000000001#32 = .illegal .mustBeZero := by decide

theorem test_decode_transmit :
    decode 0b011_00000000000000000000000000000#32 = .command .transmit ∧
    decode 0b011_11111111111111111111111111111#32 = .illegal .mustBeZero := by decide

theorem test_decode_mapInit :
    decode 0b100_00000000000000000000000000000#32 = .command .mapInit ∧
    decode 0b100_10000000000000000000000000000#32 = .illegal .mustBeZero := by decide

theorem test_decode_readIndex :
    decode 0b101_00000000000000000000000000000#32 = .command .readIndex ∧
    decode 0b101_00000000000000000000100000000#32 = .illegal .mustBeZero := by decide

theorem test_decode_reserved :
    decode 0b110_00000000000000000000000000000#32 = .illegal .reservedOp ∧
    decode 0b111_00000000000000000000000000000#32 = .illegal .reservedOp := by decide

/-- R97's encodings, as the worked words of the operation rules give them. -/
theorem test_encode :
    encode (.drvInit 7) = 0x00000007#32 ∧ encode (.setPixel 12 255 0 128) = 0x2CFF0080#32 ∧
    encode .clear = 0x40000000#32 ∧ encode .transmit = 0x60000000#32 ∧ encode .mapInit = 0x80000000#32 ∧
    encode .readIndex = 0xA0000000#32 := by decide

theorem test_decodeTableWord :
    decodeTableWord 32 0x0000001F = some (.drvInit 31) ∧ decodeTableWord 32 0x38FFFFFF = some (.setPixel 24 255 255 255) ∧
    decodeTableWord 32 0x60000000 = some .transmit ∧ decodeTableWord 32 0xC0000000 = none := by decide

/-- Each row's word runs as the first command after reset. -/
theorem test_fetchWord_first_command :
    goesOn (step (State.reset.withFetchWord 32 0x00000007)) = true ∧
    (after (State.reset.withFetchWord 32 0x20000000)).errState = true ∧
    (after (State.reset.withFetchWord 32 0x40000000)).errState = true ∧
    (after (State.reset.withFetchWord 32 0x60000000)).errState = true ∧
    (after (State.reset.withFetchWord 32 0x80000000)).mapReady = true ∧
    (after (State.reset.withFetchWord 32 0xA0000000)).errState = true := by decide

/-! Reset (R281, V-RST). -/

theorem test_reset_status : State.reset.status = 0x00#8 ∧ State.reset.cmdReady = true ∧ State.reset.dout = false := by
  decide

/-- V-RST-3: a command presented in a reset tick is not accepted. -/
theorem test_reset_tick_accepts_nothing : (after (ready [resetTick])).mapReady = false ∧
    (after (ready [resetTick])).life = .uninit := by decide

/-! DRV_INIT (V-INIT). -/

theorem test_drvInit_primary_wins :
    let t := after (fresh [claimTick 0x00000007 [false, false, false, true] [true, false, false, false]])
    t.life = .ready ∧ t.inst = 0 ∧ t.sm = 3 ∧ t.pin = 7 ∧ t.status = 0x01#8 := by decide

theorem test_drvInit_no_slot :
    let t := after (fresh [claimTick 0x00000007 [false, false, false, false] [false, false, false, false]])
    t.status = 0x08#8 ∧ t.cmdReady = false := by decide

/-- V-INIT-4. -/
theorem test_claim_fallback : claim 4 [false, false, false, false] [false, true, true, false] = some (1, 1) := by decide

/-! SET_PIXEL and CLEAR (V-FB). -/

theorem test_setPixel_last :
    let t := after (ready [hostTick 0x38FFFFFF])
    readPixel t.fb 24 = some ⟨255, 255, 255⟩ ∧ readPixel t.fb 3 = some ⟨1, 2, 3⟩ ∧ t.status = 0x01#8 := by decide

/-- V-FB-5; and V-FB-12: the lifecycle check comes first. -/
theorem test_setPixel_out_of_range :
    let t := after (ready [hostTick 0x39090909])
    t.fb = (ready []).fb ∧ t.status = 0x11#8 ∧ (after (fresh [hostTick 0x39000000])).status = 0x40#8 := by decide

theorem test_clear :
    let t := after (ready [hostTick 0x40000000])
    readPixel t.fb 3 = some ⟨0, 0, 0⟩ ∧ t.status = 0x01#8 := by decide

/-! TRANSMIT, walker, encoder, wire. -/

theorem test_transmit_starts :
    let t := after (ready [hostTick 0x60000000])
    t.wActive = true ∧ t.wPix = 0 ∧ t.wCh = 0 ∧ t.fifo = [] ∧ t.status = 0x05#8 := by decide

/-- V-TX-10. -/
theorem test_transmit_uninit :
    let t := after (fresh [hostTick 0x60000000])
    t.wActive = false ∧ t.status = 0x40#8 ∧ t.cmdReady = true := by decide

/-- FB[3] = (1, 2, 3): its words are green, red, blue (R162). -/
theorem test_walker_channels :
    (after (walking 3 0 0 [idleTick])).fifo = [0x02000000] ∧ (after (walking 3 1 0 [idleTick])).fifo = [0x01000000] ∧
    (after (walking 3 2 0 [idleTick])).fifo = [0x03000000] := by decide

/-- 2.5, FIFO_DEPTH = 4: a full queue stalls the walker; after (24, 2) it is done. -/
theorem test_walker_full_and_last :
    (after (walking 1 2 4 [idleTick])).wCh = 2 ∧ (after (walking 24 2 3 [idleTick])).wActive = false := by decide

/-- R178: at the last tick of a word the next one is loaded, E_SR from bits 31:24. -/
theorem test_encoder_next_word :
    let t := after (sending 0x01 1 9 (walking 0 0 1 [idleTick]))
    t.eRun = true ∧ t.eSr = 0x55 ∧ t.eLeft = 8 ∧ t.eCnt = 0 := by decide

/-- R169, the table of one cell at the defaults. -/
theorem test_cell_levels :
    cellLevels Config.Params.default false = [true, true, false, false, false, false, false, false, false, false] ∧
    cellLevels Config.Params.default true = [true, true, true, true, true, true, true, false, false, false] := by decide

/-- V-TX-4: the first pixel (0x3C, 0xA5, 0x01) on the wire. -/
theorem test_pixel_bits : pixelBits ⟨0x3C, 0xA5, 0x01⟩ =
    [true, false, true, false, false, true, false, true, false, false, true, true, true, true, false, false,
      false, false, false, false, false, false, false, true] := by decide

/-- R176 and R17: during a READ_INDEX on a line long quiet the line is Latched, the block not quiescent. -/
theorem test_latched_while_busy :
    let s := { mapping .reqY [] with lowRun := 2240 }
    s.Latched ∧ ¬ s.QuiescentLatched := by decide

/-! The mapper. -/

/-- V-MAP-1, 2, 3, 4, 6, 7, 9, 10, 12, 14, 15, 16, 18. -/
theorem test_mapIndex :
    mapIndex 0 4095 = 0 ∧ mapIndex 0 0 = 4 ∧ mapIndex 818 0 = 4 ∧ mapIndex 819 0 = 5 ∧ mapIndex 819 820 = 6 ∧
    mapIndex 1637 2458 = 8 ∧ mapIndex 1638 4095 = 10 ∧ mapIndex 2048 2048 = 12 ∧ mapIndex 2457 1639 = 17 ∧
    mapIndex 3275 3277 = 19 ∧ mapIndex 3276 3277 = 20 ∧ mapIndex 4095 4095 = 20 ∧ mapIndex 4095 0 = 24 := by decide

theorem test_mapInit : (after (fresh [hostTick 0x80000000])).status = 0x02#8 ∧
    (after (fresh [hostTick 0x80000000])).adcEn = 3 := by decide

/-- V-RD-1, the first row: the request is of channel 1. -/
theorem test_readIndex_starts :
    let t := after (mapping .idle [hostTick 0xA0000000])
    t.adcReq = true ∧ t.adcSel = true ∧ t.cmdReady = false := by decide

/-- V-RD-1, tick 3 to 4. -/
theorem test_readIndex_responds :
    let t := after (mapping .reqX [sensorTick 2048])
    t.rspValid = true ∧ t.idxLat = 12 := by decide

/-- V-FLT-1 and V-FLT-8. -/
theorem test_illegal_word : (after (fresh [hostTick 0xC0000000])).status = 0x20#8 ∧
    (after (halted [hostTick 0x80000000])).status = (halted []).status := by decide

/-! Witnesses: for each obligation with hypotheses, concrete values that meet all of them together; where it has several
clauses, one for each, at a boundary. -/

/-- (`goesOn r = true` says that some next state answers: `goesOn_iff`.) -/
theorem witness_DecodeOfEncodeIsIdentity :
    (Instr.drvInit 31).wellFormed = true ∧ (Instr.setPixel 31 255 255 255).wellFormed = true ∧
    Instr.readIndex.wellFormed = true := by decide

theorem witness_EncodeOfDecodeIsIdentity :
    decode 0x0000001F#32 = .command (.drvInit 31) ∧ decode 0x3FFFFFFF#32 = .command (.setPixel 31 255 255 255) ∧
    decode 0xA0000000#32 = .command .readIndex := by decide

theorem witness_WordsMatchTheOpcodeMap :
    rowMatch .clear ≠ rowMatch .transmit ∧ decode 0x00000000#32 = .command (.drvInit 0) ∧
    decode 0x20000000#32 = .command (.setPixel 0 0 0 0) ∧ decode 0xFFFFFFFF#32 = .illegal .reservedOp := by decide

theorem witness_IllegalWordsByField :
    opField 0xC0000000#32 = 0b110#3 ∧ opField 0xFFFFFFFF#32 = 0b111#3 ∧
    (opField 0x40000001#32 = 0b010#3 ∧ zeroFieldZ 0x40000001#32 ≠ 0) ∧
    (opField 0xB0000000#32 = 0b101#3 ∧ zeroFieldZ 0xB0000000#32 ≠ 0) ∧
    (opField 0x00000020#32 = 0b000#3 ∧ zeroFieldP 0x00000020#32 ≠ 0) := by decide

theorem witness_ResetTickGivesResetState : (ready [resetTick]).inputs.rst = true := by decide

theorem witness_StepRunsDecodedInstruction :
    let s := ready [hostTick 0x38FFFFFF]
    s.inputs.rst = false ∧ s.inputs.cmdValid = true ∧ s.cmdReady = true ∧
    decode s.inputs.cmdWord = .command (.setPixel 24 255 255 255) := by decide

theorem witness_IllegalWordRecordsOnlyItsFlag :
    let s := ready [hostTick 0xFFFFFFFF]
    s.accepts = true ∧ decode s.inputs.cmdWord = .illegal .reservedOp := by decide

/-- Both inner clauses: the walker inactive, the mapper idle. -/
theorem witness_NothingAcceptedNothingDone :
    let s := ready [idleTick]
    s.inputs.rst = false ∧ s.accepts = false ∧ goesOn (step s) = true ∧ s.wActive = false ∧ s.mState = .idle := by decide

theorem witness_CommandReadyAndAcceptance :
    (walking 0 0 0 [hostTick 0]).wActive = true ∧ (mapping .reqY [hostTick 0]).mState ≠ .idle ∧
    (halted [hostTick 0]).life = .halted := by decide

theorem witness_DrvInitClaimsAndClears :
    let s := fresh [claimTick 0x0000001F [false, false, false, false] [false, false, false, true]]
    s.life = .uninit ∧ claim s.params.slots s.inputs.seqFree0 s.inputs.seqFree1 = some (1, 3) := by decide

theorem witness_DrvInitWithoutSlotHalts :
    let s := fresh [claimTick 0x00000007 [false, false, false, false] [false, false, false, false]]
    s.life = .uninit ∧ (∀ k < s.params.slots, s.inputs.seqFree0[k]? ≠ some true) ∧
    (∀ k < s.params.slots, s.inputs.seqFree1[k]? ≠ some true) := by decide

theorem witness_SecondDrvInitIsWrongState :
    (ready []).life = .ready ∧ (halted []).life = .halted := by decide

/-- Each of the three outcomes of the claim, at the highest slot. -/
theorem witness_ClaimTakesLowestFreeSlot :
    [false, true].length = 2 ∧ [true, false].length = 2 ∧ claim 2 [false, true] [true, false] = some (0, 1) ∧
    claim 2 [false, false] [false, true] = some (1, 1) ∧ claim 2 [false, false] [false, false] = none := by decide

theorem witness_ClaimHeldUntilReset :
    let s := ready [hostTick 0x00000003]
    s.life = .ready ∧ s.inputs.rst = false ∧ goesOn (step s) = true := by decide

theorem witness_SetPixelStoresThePixel : (ready []).life = .ready ∧ (24 : PixIndex).toNat ≤ 24 := by decide

theorem witness_SetPixelOutOfRange :
    (ready []).life = .ready ∧ 25 ≤ (25 : PixIndex).toNat ∧ 25 ≤ (31 : PixIndex).toNat := by decide

theorem witness_FramebufferCommandsBeforeReady : (fresh []).life = .uninit ∧ (halted []).life = .halted := by decide

theorem witness_ClearBlackensAllPixels :
    (ready []).life = .ready ∧ (24 : PixIndex).toNat ≤ 24 ∧ (fresh []).life ≠ .ready ∧ (halted []).life ≠ .ready := by decide

/-- All indices, last first. -/
theorem witness_ClearEqualsTwentyFiveSetPixels :
    (ready []).life = .ready ∧
    ∀ i : PixIndex, i ∈ ((List.range 25).reverse.map (BitVec.ofNat 5)) ↔ i.toNat ≤ 24 := by decide

theorem witness_PixelWritesCommuteOrOverwrite : (24 : PixIndex) ≠ 25 ∧ (ready []).life = .ready := by decide

theorem witness_FramebufferHasOneOwner :
    let s := ready [hostTick 0x40000000]
    s.inputs.rst = false ∧ goesOn (step s) = true ∧ (after s).fb ≠ s.fb := by decide

theorem witness_TransmitStartsTheWalker : (ready []).life = .ready := by decide

theorem witness_TransmitBeforeReady : (fresh []).life = .uninit := by decide

/-- A push that goes on and the frame's last one. -/
theorem witness_WalkerPushesTheNextWord :
    ((walking 0 0 3 [idleTick]).Inv ∧ (walking 24 2 0 [idleTick]).Inv) ∧
    (let s := walking 0 0 3 [idleTick];
      s.inputs.rst = false ∧ s.wActive = true ∧ s.fifo.length < s.params.fifoDepth) ∧
    (let t := walking 24 2 0 [idleTick];
      t.inputs.rst = false ∧ t.wActive = true ∧ t.fifo.length < t.params.fifoDepth) :=
  ⟨⟨walking_inv _ (by decide) (by decide) (by decide), walking_inv _ (by decide) (by decide) (by decide)⟩, by decide⟩

theorem witness_WalkerWaitsWhileTheFifoIsFull :
    (walking 1 2 4 [idleTick]).Inv ∧
    (let s := walking 1 2 4 [idleTick];
      s.inputs.rst = false ∧ s.wActive = true ∧ s.params.fifoDepth ≤ s.fifo.length) :=
  ⟨walking_inv _ (by decide) (by decide) (by decide), by decide⟩

/-- One state for each branch of the encoder's rule, at its boundary. -/
theorem witness_EncoderStepRule :
    let s1 := sending 0x80 1 8 (ready [idleTick])
    let s2 := sending 0x80 2 9 (ready [idleTick])
    let s3 := sending 0x80 1 9 (walking 0 0 1 [idleTick])
    let s4 := sending 0x80 1 9 (ready [idleTick])
    let s5 := walking 0 0 1 [idleTick]
    (s1.inputs.rst = false ∧ goesOn (step s1) = true ∧ s1.eRun = true ∧ s1.eCnt.toNat < 9) ∧
    (s2.inputs.rst = false ∧ goesOn (step s2) = true ∧ s2.eRun = true ∧ 9 ≤ s2.eCnt.toNat ∧ 1 < s2.eLeft.toNat) ∧
    (s3.inputs.rst = false ∧ goesOn (step s3) = true ∧ s3.eRun = true ∧ 9 ≤ s3.eCnt.toNat ∧ s3.eLeft.toNat ≤ 1 ∧
      s3.fifo = [0x55000000]) ∧
    (s4.inputs.rst = false ∧ goesOn (step s4) = true ∧ s4.eRun = true ∧ 9 ≤ s4.eCnt.toNat ∧ s4.eLeft.toNat ≤ 1 ∧
      s4.fifo = []) ∧
    (s5.inputs.rst = false ∧ goesOn (step s5) = true ∧ s5.eRun = false ∧ s5.fifo = [0x55000000]) ∧
    ((ready [idleTick]).inputs.rst = false ∧ goesOn (step (ready [idleTick])) = true ∧
      (ready [idleTick]).eRun = false ∧ (ready [idleTick]).fifo = []) := by decide

theorem witness_PopAndPushShareATick :
    (sending 0x80 1 9 (walking 0 0 1 [idleTick])).Inv ∧
    (let s := sending 0x80 1 9 (walking 0 0 1 [idleTick]);
      s.inputs.rst = false ∧ s.encoderPops = true ∧ s.walkerPushes = true) :=
  ⟨sending_inv (walking_inv _ (by decide) (by decide) (by decide)) rfl (by decide) (by decide) (by decide), by decide⟩

theorem witness_WordOnTheWire :
    (sending 0xA5 8 0 (ready (List.replicate 80 idleTick))).Inv ∧
    (sending 0xA5 8 0 (ready (List.replicate 80 idleTick))).NoReset 80 ∧
    (let s := sending 0xA5 8 0 (ready (List.replicate 80 idleTick));
      s.params.wellFormed = true ∧ s.eRun = true ∧ s.eLeft = 8 ∧ s.eCnt = 0) :=
  ⟨sending_inv (ready_inv _) rfl (by decide) (by decide) (by decide), idle_noReset 80, by decide⟩

/-- A tick that completes a bit and starts no frame, and one that starts a frame while the encoder still sends. -/
theorem witness_OwedBitsAreConserved :
    ((sending 0x80 1 9 (ready [idleTick])).Inv ∧ (sending 0x80 1 9 (ready [hostTick 0x60000000])).Inv) ∧
    (let s := sending 0x80 1 9 (ready [idleTick]);
      s.inputs.rst = false ∧ goesOn (step s) = true ∧ ¬ s.StartsFrame) ∧
    (let t := sending 0x80 1 9 (ready [hostTick 0x60000000]);
      t.inputs.rst = false ∧ goesOn (step t) = true ∧ t.StartsFrame) :=
  ⟨⟨sending_inv (ready_inv _) rfl (by decide) (by decide) (by decide),
    sending_inv (ready_inv _) rfl (by decide) (by decide) (by decide)⟩, by decide, by decide⟩

theorem witness_FrameBitPositions : (599 : Nat) < 600 := by decide

theorem witness_FrameWordsCarryTheFrame : (24 : Nat) < 25 ∧ (0x03000000#32) ∈ frameWords (ready []).fb := by decide

/-- The longest case: a whole frame to push into a full queue. -/
theorem witness_TransmitCompletes :
    (walking 0 0 4 (List.replicate 6004 idleTick)).Inv ∧ (walking 0 0 4 (List.replicate 6004 idleTick)).NoReset 6004 ∧
    1 ≤ (walking 0 0 4 (List.replicate 6004 idleTick)).params.fifoDepth ∧
    (walking 0 0 4 (List.replicate 6004 idleTick)).wActive = true :=
  ⟨walking_inv _ (by decide) (by decide) (by decide), idle_noReset 6004, Nat.le_of_ble_eq_true rfl, rfl⟩

theorem witness_TransmitReadyTime :
    (framing 6003).Inv ∧ (framing 6003).Quiescent ∧ (framing 6003).StartsFrame ∧ (framing 6003).NoReset 6004 ∧
    1 ≤ (framing 6003).params.fifoDepth ∧ (framing 6003).params.fifoDepth ≤ 73 :=
  ⟨ready_inv _, ⟨rfl, rfl, rfl, rfl⟩, framing_startsFrame _, framing_noReset _, framing_depth _⟩

theorem witness_FrameOnTheWire :
    (framing 6002).Inv ∧ (framing 6002).Quiescent ∧ (framing 6002).StartsFrame ∧
    (framing 6002).params.wellFormed = true ∧ (framing 6002).NoReset 6003 :=
  ⟨ready_inv _, ⟨rfl, rfl, rfl, rfl⟩, framing_startsFrame _, framing_params _, framing_noReset _⟩

theorem witness_ResetIntervalIsTheHosts :
    (framing 2).StartsFrame ∧ (framing 2).fifo = [] ∧ (framing 2).eRun = false ∧
    (framing 2).params.wellFormed = true ∧ (framing 2).NoReset 3 :=
  ⟨framing_startsFrame _, rfl, rfl, framing_params _, framing_noReset _⟩

/-- In the middle of a word; one low tick short of the boundary, while READ_INDEX runs; and past the boundary. -/
theorem witness_LowRunOnlyObserves :
    let s := sending 0x80 1 0 (ready [idleTick])
    let t := { mapping .reqY [idleTick] with lowRun := 2239 }
    let u := { mapping .reqY [idleTick] with lowRun := 2240 }
    (goesOn (step s) = true ∧ s.inputs.rst = false) ∧ (goesOn (step t) = true ∧ t.inputs.rst = false ∧ ¬ t.Latched) ∧
    (goesOn (step u) = true ∧ u.inputs.rst = false ∧ u.Latched) := by decide

/-- The last clause as well: RESET_TICKS idle ticks. -/
theorem witness_QuietLineLatches :
    (ready (List.replicate 2240 idleTick)).Quiescent ∧ (ready (List.replicate 2240 idleTick)).NoReset 2240 ∧
    (ready (List.replicate 2240 idleTick)).NoCommand 2240 ∧ Config.resetTicks ≤ 2240 :=
  ⟨⟨rfl, rfl, rfl, rfl⟩, idle_noReset _, idle_noCommand _, by decide⟩

theorem witness_SymbolsReadBack : Config.Params.default.wellFormed = true := by decide

theorem witness_LedsShowTheFrame : Config.Params.default.wellFormed = true ∧ Config.resetTicks ≤ 2240 := by decide

theorem witness_MapInitConfiguresTheChannels :
    (mapping .idle []).mapReady = true ∧ (halted []).life = .halted := by decide

theorem witness_ReadIndexRequestsYFirst : (mapping .idle []).mapReady = true := by decide

theorem witness_ReadIndexUnconfigured :
    let s := fresh [hostTick 0xA0000000]
    s.mapReady = false ∧ s.Accepts .readIndex := by decide

theorem witness_MapIndexIsOntoTheIndices : (24 : PixIndex).toNat ≤ 24 := by decide

theorem witness_MapIndexLightsThePhysicalColumn :
    (9 : PixIndex).toNat ≤ 24 ∧ (24 : PixIndex).toNat ≤ 24 ∧ pixelRow 9 = pixelRow 9 ∧
    physicalColumn 9 = physicalColumn 9 := by decide

/-- One state for each branch of the sequencer's rule. -/
theorem witness_MapperSequencerRule :
    let ok := fun s : State => s.inputs.rst = false ∧ goesOn (step s) = true
    (ok (mapping .idle [hostTick 0xA0000000]) ∧ (mapping .idle [hostTick 0xA0000000]).mState = .idle) ∧
    (ok (mapping .reqY [sensorTick 4095]) ∧ (mapping .reqY [sensorTick 4095]).inputs.adcAck = true) ∧
    (ok (mapping .reqY [idleTick]) ∧ (mapping .reqY [idleTick]).inputs.adcAck = false) ∧
    ok (mapping .gap [sensorTick 4095]) ∧
    (ok (mapping .reqX [sensorTick 4095]) ∧ (mapping .reqX [sensorTick 4095]).inputs.adcAck = true) ∧
    (ok (mapping .reqX [idleTick]) ∧ (mapping .reqX [idleTick]).inputs.adcAck = false) ∧
    (ok (mapping .resp [idleTick]) ∧ (mapping .resp [idleTick]).mState = .resp) := by decide

/-- V-RD-2 with x = 819: three silent ticks before each sample (n = m = 3). -/
def sampling : State :=
  mapping .idle [hostTick 0xA0000000, idleTick, idleTick, idleTick, sensorTick 2048, idleTick, idleTick, idleTick, idleTick,
    sensorTick 819, idleTick, idleTick]

theorem witness_ReadIndexDeliversTheIndex :
    sampling.Accepts .readIndex ∧ sampling.mapReady = true ∧ sampling.NoReset (3 + 3 + 5) ∧
    (∀ k < 4, 1 ≤ k → (sampling.inputsAt k).adcAck = false) ∧
    (sampling.inputsAt (3 + 1)).adcAck = true ∧ (sampling.inputsAt (3 + 1)).adcData = 2048 ∧
    (∀ k < 3 + 3 + 3, 3 + 3 ≤ k → (sampling.inputsAt k).adcAck = false) ∧
    (sampling.inputsAt (3 + 3 + 3)).adcAck = true ∧ (sampling.inputsAt (3 + 3 + 3)).adcData = 819 ∧
    mapIndex 819 2048 = 7 := by decide

/-- Two states with the same sides that differ elsewhere: in a tick that accepts nothing, and in one that accepts; a driver
command on the same driver's side beside another mapper's, and a mapper command on the same mapper's side beside another
driver's. -/
theorem witness_DriverAndMapperAreIndependent :
    let s := ready [idleTick]
    let s' := { ready [idleTick] with errState := true }
    let a := ready [hostTick 0x60000000]
    let a' := { ready [hostTick 0x60000000] with errState := true }
    let d := mapping .idle [idleTick]
    let m := fresh [idleTick]
    (s.inputs.rst = false ∧ s'.inputs.rst = false ∧ s.accepts = s'.accepts ∧ s.accepts = false ∧
      goesOn (step s) = true ∧ goesOn (step s') = true ∧ s.driverSide = s'.driverSide ∧ s.mapperSide = s'.mapperSide ∧
      s.inputs.adcAck = s'.inputs.adcAck ∧ s.inputs.adcData = s'.inputs.adcData) ∧
    (a.inputs.rst = false ∧ a'.inputs.rst = false ∧ a.accepts = a'.accepts ∧ a.accepts = true ∧
      a.inputs.cmdWord = a'.inputs.cmdWord ∧ goesOn (step a) = true ∧ goesOn (step a') = true ∧
      a.driverSide = a'.driverSide ∧ a.mapperSide = a'.mapperSide ∧ a.inputs.seqFree0 = a'.inputs.seqFree0 ∧
      a.inputs.seqFree1 = a'.inputs.seqFree1 ∧ a.inputs.adcAck = a'.inputs.adcAck ∧
      a.inputs.adcData = a'.inputs.adcData) ∧
    (ofDriver (.setPixel 24 1 2 3) = true ∧ s.driverSide = d.driverSide ∧ s.mapperSide ≠ d.mapperSide ∧
      s.inputs.seqFree0 = d.inputs.seqFree0 ∧ s.inputs.seqFree1 = d.inputs.seqFree1 ∧ s.errState = d.errState ∧
      s.errIndex = d.errIndex ∧ goesOn (exec (.setPixel 24 1 2 3) s) = true ∧
      goesOn (exec (.setPixel 24 1 2 3) d) = true) ∧
    (ofDriver .readIndex = false ∧ s.mapperSide = m.mapperSide ∧ s.driverSide ≠ m.driverSide ∧
      s.errState = m.errState ∧ s.errIndex = m.errIndex ∧ goesOn (exec .readIndex s) = true ∧
      goesOn (exec .readIndex m) = true) := by decide

/-- Both clauses: a tick in M_RESP, and one that receives the X sample. -/
theorem witness_ResponseIsAOneTickPulse :
    ((mapping .resp [idleTick]).Inv ∧ (mapping .reqX [sensorTick 4095]).Inv) ∧
    (let s := mapping .resp [idleTick];
      s.inputs.rst = false ∧ goesOn (step s) = true ∧ s.rspValid = true) ∧
    (let t := mapping .reqX [sensorTick 4095];
      t.inputs.rst = false ∧ goesOn (step t) = true ∧ (after t).rspValid = true) :=
  ⟨⟨mapping_inv _, mapping_inv _⟩, by decide⟩

/-- All three flags are set. -/
theorem witness_FaultFlagsAreSticky :
    let s := { ready [hostTick 0x40000000] with errIndex := true, errIllegal := true, errState := true }
    let h := halted [idleTick]
    let r := { ready [resetTick] with errIndex := true, errIllegal := true, errState := true }
    (s.inputs.rst = false ∧ goesOn (step s) = true ∧ s.errIndex = true ∧ s.errIllegal = true ∧ s.errState = true) ∧
    (h.inputs.rst = false ∧ goesOn (step h) = true ∧ h.life = .halted) ∧
    (r.inputs.rst = true ∧ goesOn (step r) = true) := by decide

/-- A step that changes LIFE, to READY and to HALTED, and one that changes MAP_READY. -/
theorem witness_LifecycleTransitions :
    let s := fresh [hostTick 0x00000007]
    let h := fresh [claimTick 0x00000007 [] []]
    let m := fresh [hostTick 0x80000000]
    (s.inputs.rst = false ∧ goesOn (step s) = true ∧ (after s).life ≠ s.life) ∧
    (h.inputs.rst = false ∧ goesOn (step h) = true ∧ (after h).life = .halted) ∧
    (m.inputs.rst = false ∧ goesOn (step m) = true ∧ (after m).mapReady ≠ m.mapReady) := by decide

theorem witness_HaltedUntilReset :
    (halted [hostTick 0x80000000, hostTick 0x00000007, hostTick 0xFFFFFFFF]).Inv ∧
    (let s := halted [hostTick 0x80000000, hostTick 0x00000007, hostTick 0xFFFFFFFF];
      s.life = .halted ∧ s.NoReset 3) := ⟨halted_inv _, by decide⟩

/-- Each fault newly recorded; and the two priority cases. -/
theorem witness_FaultPriority :
    let a := fresh [hostTick 0xC0000000]
    let b := fresh [hostTick 0x39000000]
    let c := ready [hostTick 0x39000000]
    let d := ready [claimTick 0x00000007 [] []]
    (a.accepts = true ∧ decode a.inputs.cmdWord = .illegal .reservedOp) ∧
    (goesOn (commandStep a) = true ∧ (commanded a).errIllegal ≠ a.errIllegal) ∧
    (goesOn (commandStep b) = true ∧ (commanded b).errState ≠ b.errState) ∧
    (goesOn (commandStep c) = true ∧ (commanded c).errIndex ≠ c.errIndex) ∧
    (b.life = .uninit ∧ 25 ≤ (25 : PixIndex).toNat) ∧
    (d.life = .ready ∧ claim d.params.slots d.inputs.seqFree0 d.inputs.seqFree1 = none) :=
  by decide

theorem witness_FaultsArePrecise :
    let s := fresh [claimTick 0x00000007 [] []]
    let t := ready []
    (goesOn (exec (.setPixel 25 0 0 0) t) = true ∧ (done (.setPixel 25 0 0 0) t).errIndex ≠ t.errIndex) ∧
    (goesOn (exec .clear s) = true ∧ (done .clear s).errState ≠ s.errState) ∧
    (goesOn (exec (.drvInit 7) s) = true ∧ (done (.drvInit 7) s).life = .halted ∧ s.life ≠ .halted) :=
  by decide

/-- A step of a working block, and one of a halted block. -/
theorem witness_StepKeepsTheInvariants :
    ((sending 0x80 1 9 (walking 24 2 3 [idleTick])).Inv ∧ (halted [hostTick 0x80000000]).Inv) ∧
    goesOn (step (sending 0x80 1 9 (walking 24 2 3 [idleTick]))) = true ∧
    (let t := halted [hostTick 0x80000000];
      goesOn (step t) = true ∧ t.life = .halted ∧ t.inputs.rst = false) :=
  ⟨⟨sending_inv (walking_inv _ (by decide) (by decide) (by decide)) rfl (by decide) (by decide) (by decide),
    halted_inv _⟩, by decide⟩

theorem witness_StepNeverStops : (walking 24 2 4 [idleTick]).Inv :=
  walking_inv _ (by decide) (by decide) (by decide)

/-- After reset, with every element that R40 leaves unspecified different. -/
theorem witness_UnspecifiedElementsAreUnobservable :
    (fresh [hostTick 0x00000007]).Inv ∧
    (fresh [hostTick 0x00000007]).SameLive { fresh [hostTick 0x00000007] with
      fb := Vector.replicate 25 ⟨1, 2, 3⟩, inst := 1, sm := 9, pin := 31, wPix := 31, wCh := 3, eSr := 255, eLeft := 15,
      eCnt := 15, yLat := 4095, idxLat := 31 } ∧
    goesOn (step (fresh [hostTick 0x00000007])) = true := ⟨fresh_inv _, by simp [State.SameLive, fresh, State.resetOf], by decide⟩

end Sys2Proof.Tests
end

section
/-! Family 10_state: acceptance (R38), STATUS (R28), and LOW_RUN as an observer that no operation reads (R34). -/

namespace Sys2Proof.Machine

/-! Acceptance and STATUS. -/

/-- A block that is halted or busy accepts nothing (R38). -/
theorem not_accepts_of_not_idle {s : State} (h : ¬ (s.life ≠ .halted ∧ s.wActive = false ∧ s.mState = .idle)) :
    s.accepts = false :=
  Bool.eq_false_iff.mpr (mt idle_of_accepts h)

/-- Settles O11: the two conditions as they are defined, and with them that a busy or halted block accepts nothing. -/
theorem commandReadyAndAcceptance : Obligations.CommandReadyAndAcceptance := by
  intro s
  refine ⟨cmdReady_iff, accepts_iff, fun hbusy => not_accepts_of_not_idle fun ⟨_, hwalker, hmapper⟩ => ?_,
    fun hhalted => not_accepts_of_not_idle fun ⟨hlife, _, _⟩ => hlife hhalted⟩
  rcases hbusy with hw | hm
  · exact Bool.false_ne_true (hwalker.symm.trans hw)
  · exact hm hmapper

/-! The bits of a vector that ends in a single bit. -/

theorem getLsbD_append_ofBool_zero {w : Nat} (x : BitVec w) (b : Bool) : (x ++ BitVec.ofBool b).getLsbD 0 = b := by
  rw [BitVec.getLsbD_append]; simp

theorem getLsbD_append_ofBool_succ {w : Nat} (x : BitVec w) (b : Bool) (k : Nat) :
    (x ++ BitVec.ofBool b).getLsbD (k + 1) = x.getLsbD k := by
  rw [BitVec.getLsbD_append]; simp

/-- Settles O12: STATUS is a row of single bits, bit 7 on the left, and bit `k` is found by dropping the `k` lowest. -/
theorem statusLayout : Obligations.StatusLayout := by
  intro s
  simp only [State.status, State.busy, State.outputs, getLsbD_append_ofBool_succ, getLsbD_append_ofBool_zero,
    true_and, and_true]
  rfl

/-! LOW_RUN after a step (R34, R176). -/

/-- A tick without reset updates LOW_RUN by `dout` alone, whatever the command step and the other agents do. -/
theorem step_lowRun {s t : State} (hr : s.inputs.rst = false) (h : step s = .next t) :
    t.lowRun = if s.dout then 0 else s.lowRun + 1 := by
  obtain ⟨_, _, _, _, rfl, -⟩ := step_commandElements hr h
  rfl

/-- The line is latched after a low tick that makes the low run long enough, and only then. -/
theorem step_latched_iff {s t : State} (hr : s.inputs.rst = false) (h : step s = .next t) :
    t.Latched ↔ s.dout = false ∧ Config.resetTicks ≤ s.lowRun + 1 := by
  rw [State.Latched, step_lowRun hr h]
  cases s.dout <;> simp [Config.resetTicks]

/-- Latched begins in the low tick in which the observer of the wire sees the boundary (R176). -/
theorem step_latched_of_not_latched {s t : State} (hr : s.inputs.rst = false) (h : step s = .next t)
    (hs : ¬ s.Latched) : t.Latched ↔ s.dout = false ∧ .boundary ∈ lowTickEvents s.params 0 s.lowRun := by
  rw [step_latched_iff hr h, boundary_mem_lowTickEvents]
  exact and_congr_right fun _ => by omega

/-- Latched ends only with a high tick (R176). -/
theorem step_latched_of_latched {s t : State} (hr : s.inputs.rst = false) (h : step s = .next t) (hs : s.Latched) :
    t.Latched ↔ s.dout = false := by
  rw [step_latched_iff hr h]
  exact and_iff_left (by omega)

/-! Nothing reads LOW_RUN: every operation of a tick commutes with giving it another value. The operations that
read the state at the start of the tick, `s`, do so by field, so that their reading is the same by `change`; the case split
is for what they write. -/

/-- The state with another value in LOW_RUN. -/
def State.withLowRun (s : State) (n : Nat) : State := { s with lowRun := n }

@[simp] theorem withLowRun_life (s : State) (n : Nat) : (s.withLowRun n).life = s.life := rfl
@[simp] theorem withLowRun_mapReady (s : State) (n : Nat) : (s.withLowRun n).mapReady = s.mapReady := rfl
@[simp] theorem withLowRun_params (s : State) (n : Nat) : (s.withLowRun n).params = s.params := rfl
@[simp] theorem withLowRun_inputs (s : State) (n : Nat) : (s.withLowRun n).inputs = s.inputs := rfl
@[simp] theorem withLowRun_accepts (s : State) (n : Nat) : (s.withLowRun n).accepts = s.accepts := rfl

theorem raiseFault_withLowRun (f : BlockFault) (s : State) (n : Nat) :
    raiseFault f (s.withLowRun n) = (raiseFault f s).withLowRun n := by
  cases f <;> rfl

theorem initDriver_withLowRun (c : Option (BitVec 1 × Nat)) (pin : PinNumber) (s : State) (n : Nat) :
    initDriver c pin (s.withLowRun n) = (initDriver c pin s).withLowRun n := by
  cases c <;> rfl

/-- A command ends in the same way, with the other value of LOW_RUN kept. -/
theorem exec_withLowRun (i : Instr) (s : State) (n : Nat) :
    exec i (s.withLowRun n) = andThen (exec i s) fun t => .next (t.withLowRun n) := by
  cases i with
  | drvInit pin =>
    simp only [exec, execDrvInit, withLowRun_life, withLowRun_params, withLowRun_inputs, initDriver_withLowRun,
      raiseFault_withLowRun]
    split <;> rfl
  | setPixel x r g b =>
    simp only [exec, execSetPixel, withLowRun_life, raiseFault_withLowRun]
    (repeat' split) <;> rfl
  | clear =>
    simp only [exec, execClear, withLowRun_life, raiseFault_withLowRun]
    split <;> rfl
  | transmit =>
    simp only [exec, execTransmit, withLowRun_life, raiseFault_withLowRun]
    split <;> rfl
  | mapInit => rfl
  | readIndex =>
    simp only [exec, execReadIndex, withLowRun_mapReady, raiseFault_withLowRun]
    split <;> rfl

theorem commandStep_withLowRun {s t : State} (h : commandStep s = .next t) (n : Nat) :
    commandStep (s.withLowRun n) = .next (t.withLowRun n) := by
  rcases commandStep_cases h with ⟨ha, rfl⟩ | ⟨ha, i, hd, he⟩ | ⟨ha, ⟨why, hd⟩, rfl⟩
  · exact commandStep_not_accepted (by simpa using ha)
  · have haccepts : (s.withLowRun n).Accepts i := ⟨by simpa using ha, by simpa using hd⟩
    rw [commandStep_accepted haccepts, exec_withLowRun, he, andThen_next]
  · simp [commandStep, ha, hd, raiseFault_withLowRun]

theorem encoderStep_withLowRun (s t : State) (n : Nat) :
    encoderStep (s.withLowRun n) (t.withLowRun n) = (encoderStep s t).withLowRun n := by
  change encoderStep s (t.withLowRun n) = _
  unfold encoderStep
  (repeat' split) <;> rfl

theorem walkerAdvance_withLowRun (s t : State) (n : Nat) :
    walkerAdvance (s.withLowRun n) (t.withLowRun n) = (walkerAdvance s t).withLowRun n := by
  change walkerAdvance s (t.withLowRun n) = _
  unfold walkerAdvance
  (repeat' split) <;> rfl

theorem walkerStep_withLowRun {s t u : State} (h : walkerStep s t = .next u) (n : Nat) :
    walkerStep (s.withLowRun n) (t.withLowRun n) = .next (u.withLowRun n) := by
  change walkerStep s (t.withLowRun n) = _
  rcases walkerStep_cases h with ⟨hp, rfl⟩ | ⟨hp, v, hv, rfl⟩
  · simp [walkerStep, hp]
  · simp only [walkerStep, hp, hv, ↓reduceIte]
    exact congrArg _ (walkerAdvance_withLowRun s (fifoPush t (txWord v)) n)

theorem mapperStep_withLowRun (s t : State) (n : Nat) :
    mapperStep (s.withLowRun n) (t.withLowRun n) = (mapperStep s t).withLowRun n := by
  change mapperStep s (t.withLowRun n) = _
  unfold mapperStep
  (repeat' split) <;> rfl

/-- A step of the machine: from another value of LOW_RUN it leads to a state that differs in LOW_RUN at most. -/
theorem step_withLowRun {s t : State} (h : step s = .next t) (n : Nat) :
    ∃ m, step (s.withLowRun n) = .next (t.withLowRun m) := by
  rcases step_cases h with ⟨hr, rfl⟩ | ⟨hr, c, v, hc, hv, rfl⟩
  · exact ⟨0, step_of_reset hr⟩
  · have hv' : walkerStep (s.withLowRun n) (encoderStep (s.withLowRun n) (c.withLowRun n)) = .next (v.withLowRun n) := by
      rw [encoderStep_withLowRun]; exact walkerStep_withLowRun hv n
    refine ⟨if s.dout then 0 else n + 1, ?_⟩
    rw [step_of_no_reset (s := s.withLowRun n) hr (commandStep_withLowRun hc n) hv', mapperStep_withLowRun]
    rfl

/-- Settles O39: the update and both edges of Latched follow from `step_lowRun`; that nothing reads LOW_RUN is
`step_withLowRun`, which runs the whole tick from the altered state. -/
theorem lowRunOnlyObserves : Obligations.LowRunOnlyObserves := by
  intro s t h
  refine ⟨fun hr => ⟨step_lowRun hr h, step_latched_of_not_latched hr h, step_latched_of_latched hr h⟩, fun n => ?_⟩
  obtain ⟨m, hm⟩ := step_withLowRun h n
  exact ⟨t.withLowRun m, hm, rfl⟩

end Sys2Proof.Machine
end

section
/-! Family 30_encoding: the opcode map (R92). A word's fields decide which row it matches, and the row it matches which
command it decodes to. -/

namespace Sys2Proof

/-! Two words are equal when their fields are (R91). -/

theorem opField_append_zeroFieldZ (w : Word) : opField w ++ zeroFieldZ w = w :=
  (BitVec.extractLsb'_append_extractLsb'_eq_extractLsb' (len₂ := 3) (len₁ := 29) (Nat.zero_add 29).symm).trans
    BitVec.extractLsb'_eq_self

theorem zeroFieldP_append_pin (w : Word) : zeroFieldP w ++ w.extractLsb' 0 5 = zeroFieldZ w :=
  BitVec.extractLsb'_append_extractLsb'_eq_extractLsb' (len₂ := 24) (len₁ := 5) (Nat.zero_add 5).symm

theorem word_eq_iff_fields {v w : Word} : v = w ↔ opField v = opField w ∧ zeroFieldZ v = zeroFieldZ w := by
  refine ⟨by rintro rfl; exact ⟨rfl, rfl⟩, fun ⟨hop, hz⟩ => ?_⟩
  rw [← opField_append_zeroFieldZ v, hop, hz, opField_append_zeroFieldZ]

/-! The fields of a masked word. -/

theorem opField_and (v w : Word) : opField (v &&& w) = opField v &&& opField w := BitVec.extractLsb'_and

theorem zeroFieldZ_and (v w : Word) : zeroFieldZ (v &&& w) = zeroFieldZ v &&& zeroFieldZ w := BitVec.extractLsb'_and

/-- The opcode of a row's command (R92). -/
def rowOp : Instr → BitVec 3
  | .drvInit _ => 0b000
  | .setPixel _ _ _ _ => 0b001
  | .clear => 0b010
  | .transmit => 0b011
  | .mapInit => 0b100
  | .readIndex => 0b101

theorem opField_rowMatch (i : Instr) : opField (rowMatch i) = rowOp i := by
  cases i <;> simp [opField, rowMatch, rowOp]

theorem zeroFieldZ_rowMatch (i : Instr) : zeroFieldZ (rowMatch i) = 0 := by
  cases i <;> simp [zeroFieldZ, rowMatch]

/-- Every row's mask holds the three bits of the opcode. -/
theorem opField_rowMask (i : Instr) : opField (rowMask i) = BitVec.allOnes 3 := by
  cases i <;> simp [opField, rowMask]

theorem opField_and_rowMask (w : Word) (i : Instr) : opField (w &&& rowMask i) = opField w := by
  rw [opField_and, opField_rowMask, BitVec.and_allOnes]

/-! The words that match a row. -/

/-- A word that matches a row has the row's opcode. -/
theorem opField_of_matchesRow {w : Word} {i : Instr} (h : w &&& rowMask i = rowMatch i) : opField w = rowOp i := by
  rw [← opField_rowMatch, ← h, opField_and_rowMask]

/-- The rows are disjoint: a word that matches two of them finds the same opcode, hence the same match, in both. -/
theorem rowMatch_eq_of_matchesRow {w : Word} {i j : Instr} (hi : w &&& rowMask i = rowMatch i)
    (hj : w &&& rowMask j = rowMatch j) : rowMatch i = rowMatch j := by
  rw [word_eq_iff_fields, opField_rowMatch, opField_rowMatch, zeroFieldZ_rowMatch, zeroFieldZ_rowMatch]
  exact ⟨(opField_of_matchesRow hi).symm.trans (opField_of_matchesRow hj), rfl⟩

/-- A word matches a row iff it has the row's opcode and zeros under the rest of the mask. -/
theorem matchesRow_iff {w : Word} {i : Instr} :
    w &&& rowMask i = rowMatch i ↔ opField w = rowOp i ∧ zeroFieldZ w &&& zeroFieldZ (rowMask i) = 0 := by
  rw [word_eq_iff_fields, opField_and_rowMask, opField_rowMatch, zeroFieldZ_and, zeroFieldZ_rowMatch]

/-- Format X has no must-be-zero bits. -/
theorem matchesRow_setPixel_iff {w : Word} {x : PixIndex} {r g b : Byte} :
    w &&& rowMask (.setPixel x r g b) = rowMatch (.setPixel x r g b) ↔ opField w = 0b001 := by
  have hmask : zeroFieldZ (rowMask (.setPixel x r g b)) = 0 := by simp [zeroFieldZ, rowMask]
  rw [matchesRow_iff, hmask]
  simp [rowOp]

/-- Format P has the bits above the pin zero. -/
theorem matchesRow_drvInit_iff {w : Word} {pin : PinNumber} :
    w &&& rowMask (.drvInit pin) = rowMatch (.drvInit pin) ↔ opField w = 0b000 ∧ zeroFieldP w = 0 := by
  have hmask : zeroFieldZ (rowMask (.drvInit pin)) = BitVec.allOnes 24 ++ 0#5 := by simp [zeroFieldZ, rowMask]
  have hzero : zeroFieldZ w &&& zeroFieldZ (rowMask (.drvInit pin)) = zeroFieldP w ++ 0#5 := by
    rw [hmask, ← zeroFieldP_append_pin w, BitVec.and_append, BitVec.and_allOnes, BitVec.and_zero]
  rw [matchesRow_iff, hzero]
  exact and_congr_right fun _ => BitVec.append_left_inj (s₂ := 0#24) 0#5

/-- Format Z has all bits below the opcode zero, so that one word matches the row. -/
theorem matchesRow_iff_of_formatZ {w : Word} {i : Instr} (hi : rowMask i = BitVec.allOnes 32) :
    w &&& rowMask i = rowMatch i ↔ opField w = rowOp i ∧ zeroFieldZ w = 0 := by
  rw [hi, BitVec.and_allOnes, word_eq_iff_fields, opField_rowMatch, zeroFieldZ_rowMatch]

/-! Decoding and matching agree. -/

theorem ite_eq_command_iff {p : Prop} [Decidable p] {i j : Instr} {why : IllegalWord} :
    (if p then Decoded.command i else .illegal why) = .command j ↔ i = j ∧ p := by
  split <;> simp [*]

theorem decodeZ_eq_command_iff {w : Word} {i j : Instr} : decodeZ w i = .command j ↔ i = j ∧ zeroFieldZ w = 0 :=
  ite_eq_command_iff

theorem decodeP_eq_command_iff {w : Word} {i : Instr} :
    decodeP w = .command i ↔ .drvInit (w.extractLsb' 0 5) = i ∧ zeroFieldP w = 0 :=
  ite_eq_command_iff

/-- A word that decodes to a command matches the command's row. -/
theorem matchesRow_of_decode {w : Word} {i : Instr} (h : decode w = .command i) : w &&& rowMask i = rowMatch i := by
  unfold decode at h
  split_ifs at h with h1 h0 h2 h3 h4 h5
  · obtain rfl := Decoded.command.inj h
    exact matchesRow_setPixel_iff.2 h1
  · obtain ⟨rfl, hz⟩ := decodeP_eq_command_iff.1 h
    exact matchesRow_drvInit_iff.2 ⟨h0, hz⟩
  all_goals
    obtain ⟨rfl, hz⟩ := decodeZ_eq_command_iff.1 h
    exact (matchesRow_iff_of_formatZ rfl).2 ⟨by assumption, hz⟩

/-- The DRV_INIT row, its mask and match written out: the pin is what the mask leaves free. -/
theorem decode_drvInit_iff_matchesRow {w : Word} :
    (∃ pin, decode w = .command (.drvInit pin)) ↔ w &&& 0xFFFFFFE0#32 = 0x00000000#32 := by
  refine ⟨fun ⟨pin, h⟩ => matchesRow_of_decode h, fun h => ⟨w.extractLsb' 0 5, ?_⟩⟩
  obtain ⟨hop, hz⟩ := (matchesRow_drvInit_iff (pin := 0)).1 h
  simp [decode, decodeP, hop, hz]

/-- The SET_PIXEL row, its mask and match written out: the operands are what the mask leaves free. -/
theorem decode_setPixel_iff_matchesRow {w : Word} :
    (∃ x r g b, decode w = .command (.setPixel x r g b)) ↔ w &&& 0xE0000000#32 = 0x20000000#32 := by
  refine ⟨fun ⟨x, r, g, b, h⟩ => matchesRow_of_decode h, fun h => ?_⟩
  have hop : opField w = 0b001 := (matchesRow_setPixel_iff (x := 0) (r := 0) (g := 0) (b := 0)).1 h
  exact ⟨_, _, _, _, if_pos hop⟩

/-- One word matches a format Z row, and it decodes to the row's command. -/
theorem decode_iff_matchesRow_of_formatZ {w : Word} {i : Instr} (hi : rowMask i = BitVec.allOnes 32)
    (hd : decode (rowMatch i) = .command i) : decode w = .command i ↔ w &&& rowMask i = rowMatch i := by
  refine ⟨matchesRow_of_decode, fun h => ?_⟩
  rw [hi, BitVec.and_allOnes] at h
  rw [h, hd]

/-- A word decodes to some command iff it matches some row. -/
theorem exists_decode_iff_matchesRow {w : Word} :
    (∃ i, decode w = .command i) ↔ ∃ i, w &&& rowMask i = rowMatch i := by
  refine ⟨fun ⟨i, h⟩ => ⟨i, matchesRow_of_decode h⟩, fun ⟨i, h⟩ => ?_⟩
  cases i with
  | drvInit pin => exact (decode_drvInit_iff_matchesRow.2 h).imp' .drvInit fun _ => id
  | setPixel x r g b =>
    obtain ⟨x, r, g, b, hd⟩ := decode_setPixel_iff_matchesRow.2 h
    exact ⟨_, hd⟩
  | clear | transmit | mapInit | readIndex => exact ⟨_, (decode_iff_matchesRow_of_formatZ rfl (by decide)).2 h⟩

theorem decode_illegal_iff {w : Word} : (∃ why, decode w = .illegal why) ↔ ¬ ∃ i, decode w = .command i := by
  cases decode w <;> simp

/-- Settles O3: the six rows by format, disjointness by the opcode that a match fixes, and the illegal words as those
that decode to no command, hence match no row. -/
theorem wordsMatchTheOpcodeMap : Obligations.WordsMatchTheOpcodeMap := by
  refine ⟨fun _ => decode_drvInit_iff_matchesRow, fun _ => decode_setPixel_iff_matchesRow,
    fun _ => decode_iff_matchesRow_of_formatZ (i := .clear) rfl (by decide),
    fun _ => decode_iff_matchesRow_of_formatZ (i := .transmit) rfl (by decide),
    fun _ => decode_iff_matchesRow_of_formatZ (i := .mapInit) rfl (by decide),
    fun _ => decode_iff_matchesRow_of_formatZ (i := .readIndex) rfl (by decide),
    fun _ _ _ hne ⟨hi, hj⟩ => hne (rowMatch_eq_of_matchesRow hi hj), fun w => ?_⟩
  rw [decode_illegal_iff, exists_decode_iff_matchesRow, not_exists]

end Sys2Proof
end

section
/-! Family 40_driver_init: the slot claim (R121), DRV_INIT in each lifecycle state (R123, R125), and the handle that is
held until reset (R124). -/

namespace Sys2Proof.Machine

/-! The three answers of the claim. -/

theorem claim_eq_primary_iff {n k : Nat} {f0 f1 : List Bool} :
    claim n f0 f1 = some (0, k) ↔ firstFree (f0.take n) = some k := by
  rcases claim_cases n f0 f1 with ⟨i, h0, hc⟩ | ⟨h0, i, -, hc⟩ | ⟨h0, -, hc⟩ <;> simp [h0, hc]

theorem claim_eq_secondary_iff {n k : Nat} {f0 f1 : List Bool} :
    claim n f0 f1 = some (1, k) ↔ firstFree (f0.take n) = none ∧ firstFree (f1.take n) = some k := by
  rcases claim_cases n f0 f1 with ⟨i, h0, hc⟩ | ⟨h0, i, h1, hc⟩ | ⟨h0, h1, hc⟩
  · simp [h0, hc]
  · simp [h0, h1, hc]
  · simp [h1, hc]

theorem claim_eq_none_iff {n : Nat} {f0 f1 : List Bool} :
    claim n f0 f1 = none ↔ firstFree (f0.take n) = none ∧ firstFree (f1.take n) = none := by
  rcases claim_cases n f0 f1 with ⟨i, h0, hc⟩ | ⟨-, i, h1, hc⟩ | ⟨h0, h1, hc⟩
  · simp [h0, hc]
  · simp [h1, hc]
  · simp [h0, h1, hc]

/-- A mask has no free slot iff each of its bits is 0. -/
theorem firstFree_eq_none_iff_getElem? {l : List Bool} :
    firstFree l = none ↔ ∀ j < l.length, l[j]? = some false := by
  rw [firstFree_eq_none, List.forall_mem_iff_forall_getElem]
  exact forall₂_congr fun j hj => by rw [List.getElem?_eq_getElem hj, Option.some.injEq]

/-- Settles O16: a mask of SLOTS bits is its own first SLOTS entries, so each answer of the claim is one of `firstFree`
over whole masks, read bit by bit. -/
theorem claimTakesLowestFreeSlot : Obligations.ClaimTakesLowestFreeSlot := by
  rintro _ f0 f1 rfl hlen
  have h0 : f0.take f0.length = f0 := List.take_length
  have h1 : f1.take f0.length = f1 := hlen ▸ List.take_length
  have hnone : firstFree f1 = none ↔ ∀ j < f0.length, f1[j]? = some false := hlen ▸ firstFree_eq_none_iff_getElem?
  refine ⟨fun k => ?_, fun k => ?_, ?_⟩
  · rw [claim_eq_primary_iff, h0, firstFree_eq_some]
  · rw [claim_eq_secondary_iff, h0, h1, firstFree_eq_none_iff_getElem?, firstFree_eq_some]
  · rw [claim_eq_none_iff, h0, h1, firstFree_eq_none_iff_getElem?, hnone]

/-! The handle (R26, R124): only a DRV_INIT in UNINIT and a reset write it. -/

/-- The lifecycle and the handle are the same in both states. -/
structure SameHandle (s t : State) : Prop where
  life : t.life = s.life
  inst : t.inst = s.inst
  sm : t.sm = s.sm
  pin : t.pin = s.pin

theorem raiseFault_sameHandle {f : BlockFault} (hf : f ≠ .noSequencer) (s : State) : SameHandle s (raiseFault f s) := by
  exact ⟨by rw [raiseFault_life, if_neg hf], raiseFault_inst f s, raiseFault_sm f s, raiseFault_pin f s⟩

/-- Of what a command step can do, only `initDriver` touches the lifecycle or the handle, and that needs UNINIT. -/
theorem commandStep_sameHandle {s t : State} (hlife : s.life ≠ .uninit) (h : commandStep s = .next t) :
    SameHandle s t := by
  rcases commandStep_writes h with rfl | ⟨-, rfl | rfl | rfl | ⟨_, -, huninit, -⟩ | hother⟩
  · exact ⟨rfl, rfl, rfl, rfl⟩
  · exact raiseFault_sameHandle (by decide) s
  · exact raiseFault_sameHandle (by decide) s
  · exact raiseFault_sameHandle (by decide) s
  · exact absurd huninit hlife
  · rcases hother with ⟨_, _, _, _, -, -, -, rfl⟩ | ⟨-, -, rfl⟩ | ⟨-, -, rfl⟩ | ⟨-, rfl⟩ | ⟨-, -, rfl⟩ <;>
      exact ⟨rfl, rfl, rfl, rfl⟩

/-- There is no release operation (R124): outside UNINIT every tick without reset keeps the handle. -/
theorem step_sameHandle {s t : State} (hlife : s.life ≠ .uninit) (hr : s.inputs.rst = false)
    (h : step s = .next t) : SameHandle s t := by
  obtain ⟨c, v, hc, -, -, -, hl, -, hi, hs, hp, -⟩ := step_commandElements hr h
  obtain ⟨hl', hi', hs', hp'⟩ := commandStep_sameHandle hlife hc
  exact ⟨hl.trans hl', hi.trans hi', hs.trans hs', hp.trans hp'⟩

/-- While READY the claim is on the ports. -/
theorem seqClaimed_of_ready {s : State} (h : s.life = .ready) : s.outputs.seqClaimed = true := decide_eq_true h

/-- Settles O17: the ports show the handle, and a step without reset from READY keeps it (`step_sameHandle`). -/
theorem claimHeldUntilReset : Obligations.ClaimHeldUntilReset := by
  refine ⟨fun s hready => ⟨seqClaimed_of_ready hready, rfl, rfl, rfl, if_pos (seqClaimed_of_ready hready)⟩,
    fun s t hready hr h => ?_⟩
  obtain ⟨hlife, hinst, hsm, hpin⟩ := step_sameHandle (by simp [hready]) hr h
  have hready' : t.life = .ready := hlife.trans hready
  exact ⟨hready', hinst, hsm, hpin, seqClaimed_of_ready hready', hinst, hsm, hpin⟩

/-! DRV_INIT by lifecycle state. -/

theorem exec_drvInit_of_uninit {s : State} (pin : PinNumber) (h : s.life = .uninit) :
    exec (.drvInit pin) s =
      .next (initDriver (claim s.params.slots s.inputs.seqFree0 s.inputs.seqFree1) pin s) :=
  if_pos h

theorem exec_drvInit_of_not_uninit {s : State} (pin : PinNumber) (h : s.life ≠ .uninit) :
    exec (.drvInit pin) s = .next (raiseFault .wrongState s) :=
  if_neg h

/-- Settles O13: the claim succeeds, and `initDriver` writes the handle, the black framebuffer and LIFE. -/
theorem drvInitClaimsAndClears : Obligations.DrvInitClaimsAndClears := by
  intro s pin c huninit hclaim
  rw [exec_drvInit_of_uninit pin huninit, hclaim]
  rfl

/-- Settles O15: outside UNINIT a DRV_INIT raises WrongState, whose record is ERR_STATE; a halted block accepts nothing. -/
theorem secondDrvInitIsWrongState : Obligations.SecondDrvInitIsWrongState := by
  intro s pin
  obtain ⟨-, -, -, hhalted⟩ := commandReadyAndAcceptance s
  refine ⟨fun hready => ?_, hhalted⟩
  rw [exec_drvInit_of_not_uninit pin (by simp [hready])]
  rfl

end Sys2Proof.Machine
end

section
/-! Family 41_framebuffer: SET_PIXEL and CLEAR by lifecycle state and index (R140 to R143, R148), and CLEAR as a sequence of
SET_PIXEL commands (R144). -/

namespace Sys2Proof.Machine

/-! SET_PIXEL and CLEAR, case by case. -/

theorem exec_setPixel_of_le {s : State} {x : PixIndex} (r g b : Byte) (hready : s.life = .ready) (hx : x.toNat ≤ 24) :
    exec (.setPixel x r g b) s = .next (writePixel s x ⟨r, g, b⟩) :=
  (if_pos hready).trans (if_pos (indexLegal_iff.mpr hx))

theorem exec_setPixel_of_ge {s : State} {x : PixIndex} (r g b : Byte) (hready : s.life = .ready) (hx : 25 ≤ x.toNat) :
    exec (.setPixel x r g b) s = .next (raiseFault .indexRange s) :=
  (if_pos hready).trans (if_neg (mt indexLegal_iff.mp (by omega)))

theorem exec_setPixel_of_not_ready {s : State} (x : PixIndex) (r g b : Byte) (h : s.life ≠ .ready) :
    exec (.setPixel x r g b) s = .next (raiseFault .wrongState s) :=
  if_neg h

theorem exec_clear_of_ready {s : State} (h : s.life = .ready) : exec .clear s = .next (clearPixels s) :=
  if_pos h

theorem exec_clear_of_not_ready {s : State} (h : s.life ≠ .ready) : exec .clear s = .next (raiseFault .wrongState s) :=
  if_neg h

/-! A framebuffer is known by its 25 pixels. -/

theorem readPixel_clearPixels (s : State) {j : PixIndex} (h : j.toNat ≤ 24) :
    readPixel (clearPixels s).fb j = some blackPixel := by
  rw [readPixel_of_le h, clearPixels_fb, Vector.getElem_replicate]

theorem eq_of_readPixel_eq {fb fb' : Vector Pixel 25}
    (h : ∀ j : PixIndex, j.toNat ≤ 24 → readPixel fb j = readPixel fb' j) : fb = fb' := by
  ext1 k hk
  have hj : (BitVec.ofNat 5 k).toNat = k := Nat.mod_eq_of_lt (by omega)
  have hle : (BitVec.ofNat 5 k).toNat ≤ 24 := by omega
  simpa [readPixel_of_le hle, hj] using h (BitVec.ofNat 5 k) hle

/-! Many SET_PIXEL commands with the same channels. -/

/-- In READY, SET_PIXEL with one colour at each index of a list writes FB only: the listed pixels have that colour after it,
whatever the order and however often an index is repeated, and the others read as before. -/
theorem execAll_setPixel {s : State} {order : List PixIndex} (r g b : Byte) (hready : s.life = .ready)
    (horder : ∀ i ∈ order, i.toNat ≤ 24) :
    ∃ fb, execAll (order.map fun i => .setPixel i r g b) s = .next { s with fb := fb } ∧
      ∀ j, readPixel fb j = if j ∈ order then some ⟨r, g, b⟩ else readPixel s.fb j := by
  induction order generalizing s with
  | nil => exact ⟨s.fb, rfl, fun j => by simp⟩
  | cons i rest ih =>
    obtain ⟨hi, hrest⟩ := List.forall_mem_cons.mp horder
    obtain ⟨fb, hrun, hread⟩ := ih (s := writePixel s i ⟨r, g, b⟩) hready hrest
    refine ⟨fb, ?_, fun j => ?_⟩
    · rw [List.map_cons, execAll, exec_setPixel_of_le r g b hready hi, andThen_next, hrun]
      rfl
    · rw [hread]
      rcases eq_or_ne j i with rfl | hj
      · rw [readPixel_writePixel_same s _ hi]; simp
      · rw [readPixel_writePixel_other s _ hj]; simp [hj]

/-- Settles O22: both sides write FB only, and every pixel reads black after either. -/
theorem clearEqualsTwentyFiveSetPixels : Obligations.ClearEqualsTwentyFiveSetPixels := by
  intro s order hready horder
  obtain ⟨fb, hrun, hread⟩ := execAll_setPixel 0 0 0 hready fun i hi => (horder i).mp hi
  have hfb : fb = (clearPixels s).fb := eq_of_readPixel_eq fun j hj => by
    rw [hread, if_pos ((horder j).mpr hj), readPixel_clearPixels s hj]
    rfl
  rw [hrun, hfb, exec_clear_of_ready hready]
  rfl

/-- Settles O18: the command is one `writePixel`, which reads back at its index and nowhere else. -/
theorem setPixelStoresThePixel : Obligations.SetPixelStoresThePixel :=
  fun s _ r g b hready hx => ⟨_, exec_setPixel_of_le r g b hready hx, readPixel_writePixel_same s _ hx,
    fun _ => readPixel_writePixel_other s _⟩

/-- Settles O19: the fault's record is ERR_INDEX, which `cmd_ready` does not read. -/
theorem setPixelOutOfRange : Obligations.SetPixelOutOfRange :=
  fun _ _ r g b hready hx => ⟨exec_setPixel_of_ge r g b hready hx, rfl⟩

/-- Settles O20: outside READY both commands raise WrongState, whose record is ERR_STATE; a halted block accepts nothing. -/
theorem framebufferCommandsBeforeReady : Obligations.FramebufferCommandsBeforeReady := by
  intro s
  obtain ⟨-, -, -, hhalted⟩ := commandReadyAndAcceptance s
  refine ⟨fun huninit => ?_, hhalted⟩
  have hlife : s.life ≠ .ready := by simp [huninit]
  exact ⟨fun x r g b => exec_setPixel_of_not_ready x r g b hlife, exec_clear_of_not_ready hlife⟩

/-- Settles O21: the word is CLEAR's row of the opcode map, the command in READY one `clearPixels`. -/
theorem clearBlackensAllPixels : Obligations.ClearBlackensAllPixels :=
  ⟨by decide, fun s => ⟨fun hready => ⟨_, exec_clear_of_ready hready, fun _ => readPixel_clearPixels s⟩,
    exec_clear_of_not_ready⟩⟩

end Sys2Proof.Machine
end

section
/-! Family 42_transmit_encoder: the encoder's step (R178), branch by branch, as part of a tick without reset. -/

namespace Sys2Proof.Machine

/-! When the encoder pops. -/

/-- A word is popped if there is one and the encoder is not inside a word or ends it in this tick (R178). -/
theorem encoderPops_iff {s : State} :
    s.encoderPops = true ↔ s.fifo ≠ [] ∧ (s.eRun = true → 9 ≤ s.eCnt.toNat ∧ s.eLeft.toNat ≤ 1) := by
  unfold State.encoderPops
  rw [show Config.cellTicks - 1 = 9 from rfl]
  cases s.eRun <;> simp

theorem not_encoderPops_of_nil {s : State} (hfifo : s.fifo = []) : s.encoderPops = false :=
  Bool.eq_false_iff.mpr fun hpop => (encoderPops_iff.mp hpop).1 hfifo

/-- Before the last tick of a word nothing is popped. -/
theorem not_encoderPops_of_inside_word {s : State} (hrun : s.eRun = true)
    (hinside : s.eCnt.toNat < 9 ∨ 1 < s.eLeft.toNat) : s.encoderPops = false :=
  Bool.eq_false_iff.mpr fun hpop => by
    obtain ⟨hcnt, hleft⟩ := (encoderPops_iff.mp hpop).2 hrun
    omega

/-- The line is low in every tick that finds the encoder idle (R32). -/
theorem dout_of_idle {s : State} (hidle : s.eRun = false) : s.dout = false := by
  simp [State.dout, hidle]

/-! The branches of the encoder's step: each names the branch of `encoderStep` it is in. -/

theorem encoderStep_inside_cell {s : State} (t : State) (hrun : s.eRun = true) (hcnt : s.eCnt.toNat < 9) :
    encoderStep s t = { t with eCnt := s.eCnt + 1 } := by
  simp [encoderStep, Config.cellTicks, hrun, hcnt]

theorem encoderStep_end_of_cell {s : State} (t : State) (hrun : s.eRun = true) (hcnt : 9 ≤ s.eCnt.toNat)
    (hleft : 1 < s.eLeft.toNat) :
    encoderStep s t = { t with eSr := s.eSr <<< 1, eLeft := s.eLeft - 1, eCnt := 0 } := by
  simp [encoderStep, Config.cellTicks, hrun, Nat.not_lt.mpr hcnt, hleft]

theorem encoderStep_end_of_last_word {s : State} (t : State) (hrun : s.eRun = true) (hcnt : 9 ≤ s.eCnt.toNat)
    (hleft : s.eLeft.toNat ≤ 1) (hfifo : s.fifo = []) : encoderStep s t = { t with eRun := false } := by
  simp [encoderStep, Config.cellTicks, hrun, Nat.not_lt.mpr hcnt, Nat.not_lt.mpr hleft, hfifo]

theorem encoderStep_idle {s : State} (t : State) (hidle : s.eRun = false) (hfifo : s.fifo = []) :
    encoderStep s t = t := by
  simp [encoderStep, hidle, hfifo]

/-- Both branches that load a word, at the end of a word and out of idleness, lead to the same registers. -/
theorem encoderStep_load {s t : State} {w : Word} {rest : List Word} (hsame : t.eRun = s.eRun)
    (hfifo : s.fifo = w :: rest) (hend : s.eRun = true → 9 ≤ s.eCnt.toNat ∧ s.eLeft.toNat ≤ 1) :
    encoderStep s t = { loadWord w t with eRun := true } := by
  cases hrun : s.eRun with
  | false => simp [encoderStep, hrun, hfifo]
  | true =>
    obtain ⟨hcnt, hleft⟩ := hend hrun
    have hload : encoderStep s t = loadWord w t := by
      simp [encoderStep, Config.cellTicks, hrun, Nat.not_lt.mpr hcnt, Nat.not_lt.mpr hleft, hfifo]
    rw [hload, ← hrun, ← hsame]
    rfl

/-! The same branches in a whole tick: no command step and no other agent touches the encoder's registers. -/

section
variable {s t : State} (hr : s.inputs.rst = false) (h : step s = .next t)
include hr h

theorem step_encoder_inside_cell (hrun : s.eRun = true) (hcnt : s.eCnt.toNat < 9) :
    t.eRun = true ∧ t.eSr = s.eSr ∧ t.eLeft = s.eLeft ∧ t.eCnt.toNat = s.eCnt.toNat + 1 ∧ s.encoderPops = false := by
  obtain ⟨c, hsame, -, heRun, heSr, heLeft, heCnt⟩ := step_encoder hr h
  rw [encoderStep_inside_cell c hrun hcnt] at heRun heSr heLeft heCnt
  refine ⟨heRun.trans (hsame.eRun.trans hrun), heSr.trans hsame.eSr, heLeft.trans hsame.eLeft, ?_,
    not_encoderPops_of_inside_word hrun (.inl hcnt)⟩
  rw [heCnt]
  bv_omega

theorem step_encoder_end_of_cell (hrun : s.eRun = true) (hcnt : 9 ≤ s.eCnt.toNat) (hleft : 1 < s.eLeft.toNat) :
    t.eRun = true ∧ t.eSr = s.eSr <<< 1 ∧ t.eLeft.toNat = s.eLeft.toNat - 1 ∧ t.eCnt = 0 ∧ s.encoderPops = false := by
  obtain ⟨c, hsame, -, heRun, heSr, heLeft, heCnt⟩ := step_encoder hr h
  rw [encoderStep_end_of_cell c hrun hcnt hleft] at heRun heSr heLeft heCnt
  refine ⟨heRun.trans (hsame.eRun.trans hrun), heSr, ?_, heCnt, not_encoderPops_of_inside_word hrun (.inr hleft)⟩
  rw [heLeft]
  bv_omega

theorem step_encoder_end_of_last_word (hrun : s.eRun = true) (hcnt : 9 ≤ s.eCnt.toNat) (hleft : s.eLeft.toNat ≤ 1)
    (hfifo : s.fifo = []) : t.eRun = false ∧ s.encoderPops = false := by
  obtain ⟨c, -, -, heRun, -⟩ := step_encoder hr h
  rw [encoderStep_end_of_last_word c hrun hcnt hleft hfifo] at heRun
  exact ⟨heRun, not_encoderPops_of_nil hfifo⟩

theorem step_encoder_idle (hidle : s.eRun = false) (hfifo : s.fifo = []) : t.eRun = false ∧ s.encoderPops = false := by
  obtain ⟨c, hsame, -, heRun, -⟩ := step_encoder hr h
  rw [encoderStep_idle c hidle hfifo] at heRun
  exact ⟨heRun.trans (hsame.eRun.trans hidle), not_encoderPops_of_nil hfifo⟩

theorem step_encoder_load {w : Word} {rest : List Word} (hfifo : s.fifo = w :: rest)
    (hend : s.eRun = true → 9 ≤ s.eCnt.toNat ∧ s.eLeft.toNat ≤ 1) :
    t.eRun = true ∧ t.eSr = w.extractLsb' 24 8 ∧ t.eLeft = 8 ∧ t.eCnt = 0 ∧ s.encoderPops = true := by
  obtain ⟨c, hsame, -, heRun, heSr, heLeft, heCnt⟩ := step_encoder hr h
  rw [encoderStep_load hsame.eRun hfifo hend] at heRun heSr heLeft heCnt
  exact ⟨heRun, heSr, heLeft, heCnt, encoderPops_iff.mpr ⟨by simp [hfifo], hend⟩⟩

/-- Beside the encoder's pop the queue changes by the walker's push alone, which is one word at most (R179, R180). -/
theorem step_fifo_pushes_at_most_one :
    ∃ pushed, t.fifo = (if s.encoderPops then s.fifo.tail else s.fifo) ++ pushed ∧ pushed.length ≤ 1 := by
  refine ⟨_, step_fifo hr h, ?_⟩
  cases s.walkerPushes with
  | false => simp
  | true => cases walkerByte s.fb s.wPix s.wCh <;> simp

end

/-- Settles O29: each branch of R178 is one of the lemmas above; a load at the end of a word and one out of idleness are
both `step_encoder_load`. -/
theorem encoderStepRule : Obligations.EncoderStepRule := by
  intro s t hr h
  have hidle_load (hidle : s.eRun = false) (w : Word) (rest : List Word) (hfifo : s.fifo = w :: rest) :=
    step_encoder_load hr h hfifo fun hrun => absurd hrun (by simp [hidle])
  exact ⟨step_encoder_inside_cell hr h, step_encoder_end_of_cell hr h,
    fun _ hcnt hleft _ _ hfifo => step_encoder_load hr h hfifo fun _ => ⟨hcnt, hleft⟩,
    step_encoder_end_of_last_word hr h, hidle_load, step_encoder_idle hr h, dout_of_idle, step_fifo_pushes_at_most_one hr h⟩

end Sys2Proof.Machine
end

section
/-! Family 43_mapper: MapIndex in closed form and onto the indices (R214 to R221), MAP_INIT (R210), READ_INDEX before it
(R224), and the one-tick response (R223). -/

namespace Sys2Proof.Machine

/-! The arithmetic of MapIndex: scale, clamp, invert, flatten (R213). -/

theorem clampFour_eq_min (v : Nat) : clampFour v = min 4 v := by
  unfold clampFour; split <;> omega

/-- Scaling and clamping number the bands of 819 sample values, the last band taking what is left (R215, R216). -/
theorem clampFour_scaleToFive (v : Nat) : clampFour (scaleToFive v) = min 4 (v / 819) := by
  rw [clampFour_eq_min, scaleToFive, show Config.adcMax = 819 * 5 from rfl, Nat.mul_div_mul_right v 819 (by decide)]

theorem serpentine_eq_of_le {row : Nat} (hrow : row ≤ 4) (col : Nat) :
    serpentine row col = if row % 2 = 0 then col else 4 - col := by
  unfold serpentine; split <;> split <;> omega

theorem serpentine_le (row : Nat) {col : Nat} (hcol : col ≤ 4) : serpentine row col ≤ 4 := by
  unfold serpentine; split <;> omega

/-- The inversion of a row undoes itself (R217). -/
theorem serpentine_serpentine (row : Nat) {col : Nat} (hcol : col ≤ 4) : serpentine row (serpentine row col) = col := by
  unfold serpentine; split <;> omega

theorem mapIndexNat_eq_bands (x y : Nat) :
    mapIndexNat x y = min 4 (x / 819) * 5 + serpentine (min 4 (x / 819)) (min 4 ((4095 - y) / 819)) := by
  rw [← clampFour_scaleToFive, ← clampFour_scaleToFive]; rfl

theorem mapIndexNat_le (x y : Nat) : mapIndexNat x y ≤ 24 := by
  have hcol := serpentine_le (min 4 (x / 819)) (Nat.min_le_left 4 ((4095 - y) / 819))
  rw [mapIndexNat_eq_bands]
  omega

/-- The index fits IDX_BITS, so that nothing is lost in the port's five bits (R218). -/
theorem toNat_mapIndex (x y : Sample) : (mapIndex x y).toNat = mapIndexNat x.toNat y.toNat :=
  Nat.mod_eq_of_lt (Nat.lt_of_le_of_lt (mapIndexNat_le _ _) (by decide))

/-- The 25 bands of R221: rows by the band of x, columns by that of y from its lowest. -/
def bandTable : List (List Nat) :=
  [[4, 3, 2, 1, 0], [5, 6, 7, 8, 9], [14, 13, 12, 11, 10], [15, 16, 17, 18, 19], [24, 23, 22, 21, 20]]

theorem bandTable_entry : ∀ row < 5, ∀ col < 5,
    (bandTable[row]?.bind fun entries => entries[4 - col]?) = some (row * 5 + serpentine row col) := by decide

/-- Settles O46: the bands of the two samples lie in 0 to 4, where the inverted rows are the odd ones and the table has an
entry. -/
theorem mapIndexClosedForm : Obligations.MapIndexClosedForm := by
  intro x y
  have hrow : min 4 (x.toNat / 819) ≤ 4 := Nat.min_le_left _ _
  have hcol : min 4 ((4095 - y.toNat) / 819) ≤ 4 := Nat.min_le_left _ _
  rw [toNat_mapIndex, mapIndexNat_eq_bands]
  refine ⟨?_, bandTable_entry _ (Nat.lt_succ_of_le hrow) _ (Nat.lt_succ_of_le hcol)⟩
  rw [serpentine_eq_of_le hrow, Nat.mul_comm]

/-- The lowest sample of a row's band and the highest of a column's select that row and that column. -/
theorem mapIndexNat_of_bands {row col : Nat} (hrow : row ≤ 4) (hcol : col ≤ 4) :
    mapIndexNat (819 * row) (4095 - 819 * col) = row * 5 + serpentine row col := by
  have hx : min 4 (819 * row / 819) = row := by omega
  have hy : min 4 ((4095 - (4095 - 819 * col)) / 819) = col := by omega
  rw [mapIndexNat_eq_bands, hx, hy]

/-- Settles O47: index `i` comes from the bands of its row and of its physical column, which the inversion turns back into
its logical one. -/
theorem mapIndexIsOntoTheIndices : Obligations.MapIndexIsOntoTheIndices := by
  refine ⟨fun x y => toNat_mapIndex x y ▸ mapIndexNat_le _ _, fun i hi => ?_⟩
  have hrow : pixelRow i ≤ 4 := Nat.le_of_lt_succ (Nat.div_lt_of_lt_mul (Nat.lt_succ_of_le hi))
  have hlogical : pixelCol i ≤ 4 := Nat.le_of_lt_succ (Nat.mod_lt _ (by decide))
  have hcol : physicalColumn i ≤ 4 := serpentine_le _ hlogical
  refine ⟨BitVec.ofNat 12 (819 * pixelRow i), BitVec.ofNat 12 (4095 - 819 * physicalColumn i), BitVec.eq_of_toNat_eq ?_⟩
  calc (mapIndex _ _).toNat
      = mapIndexNat (819 * pixelRow i) (4095 - 819 * physicalColumn i) := by
        rw [toNat_mapIndex, BitVec.toNat_ofNat, BitVec.toNat_ofNat, Nat.mod_eq_of_lt (by omega), Nat.mod_eq_of_lt (by omega)]
    _ = pixelRow i * 5 + pixelCol i := by
        rw [mapIndexNat_of_bands hrow hcol, physicalColumn, serpentine_serpentine _ hlogical]
    _ = i.toNat := Nat.div_add_mod' i.toNat 5

/-! MAP_INIT and READ_INDEX as commands. -/

theorem adcEn_of_mapReady {s : State} (h : s.mapReady = true) : s.adcEn = 0b11#2 := by
  rw [State.adcEn, h]; rfl

/-- Settles O43: the command is one write of MAP_READY, which changes nothing where it is 1 already. -/
theorem mapInitConfiguresTheChannels : Obligations.MapInitConfiguresTheChannels := by
  refine ⟨by decide, fun s => ?_⟩
  obtain ⟨-, -, -, hhalted⟩ := commandReadyAndAcceptance s
  have hsame (hready : s.mapReady = true) : { s with mapReady := true } = s := by rw [← hready]
  exact ⟨rfl, adcEn_of_mapReady rfl, fun hready => congrArg Host.Outcome.next (hsame hready), hhalted⟩

theorem exec_readIndex_of_not_mapReady {s : State} (h : s.mapReady = false) :
    exec .readIndex s = .next (raiseFault .wrongState s) :=
  if_neg (Bool.eq_false_iff.mp h)

theorem mapperStep_of_idle {s : State} (t : State) (h : s.mState = .idle) : mapperStep s t = t := by
  simp [mapperStep, h]

/-- A tick that accepts a command finds walker and mapper at rest: only the encoder and the wire observer act beside it. -/
theorem step_of_accepts {s c : State} {i : Instr} (h : s.Accepts i) (hc : exec i s = .next c) :
    step s = .next (advance s (lowRunStep s (encoderStep s c))) := by
  obtain ⟨-, hwalker, hidle⟩ := idle_of_accepts h.1
  rw [step_of_no_reset (accepts_iff.mp h.1).1 ((commandStep_accepted h).trans hc) (walkerStep_inactive _ hwalker),
    mapperStep_of_idle _ hidle]

/-- Settles O45: READ_INDEX raises WrongState, whose record is ERR_STATE, and the agents of the accepting tick leave the
idle mapper and `cmd_ready` alone. -/
theorem readIndexUnconfigured : Obligations.ReadIndexUnconfigured := by
  intro s hready
  have hexec := exec_readIndex_of_not_mapReady hready
  refine ⟨hexec, fun haccepts => ⟨_, step_of_accepts haccepts hexec, ?_⟩⟩
  obtain ⟨hlife, hwalker, hidle⟩ := idle_of_accepts haccepts.1
  simp [State.adcReq, State.rspValid, State.cmdReady, hlife, hwalker, hidle]

/-! The response (R223). -/

theorem rspValid_iff {s : State} : s.rspValid = true ↔ s.mState = .resp := decide_eq_true_iff

/-- Of the command steps only an admitted READ_INDEX moves the mapper sequencer (R211). -/
theorem commandStep_mState {s c : State} (h : commandStep s = .next c) :
    c.mState = s.mState ∨ s.Accepts .readIndex ∧ s.mapReady = true ∧ c.mState = .reqY := by
  rcases commandStep_writes h with rfl | ⟨-, rfl | rfl | rfl | ⟨_, -, -, rfl⟩ | ⟨_, _, _, _, -, -, -, rfl⟩ | ⟨-, -, rfl⟩ |
    ⟨-, -, rfl⟩ | ⟨-, rfl⟩ | ⟨haccepts, hready, rfl⟩⟩
  on_goal 10 => exact .inr ⟨haccepts, hready, rfl⟩
  all_goals exact .inl (by simp)

/-- A tick without reset that starts in M_RESP ends the response: no command is accepted and the walker is at rest. -/
theorem step_of_resp {s t : State} (hwalker : s.wActive = false) (hr : s.inputs.rst = false) (hresp : s.mState = .resp)
    (h : step s = .next t) : t.mState = .idle ∧ t.life = s.life ∧ t.wActive = false := by
  have hstep := step_of_no_reset hr (commandStep_of_mapper (by simp [hresp])) (walkerStep_inactive (encoderStep s s) hwalker)
  cases h.symm.trans hstep
  simp [mapperStep, hresp, hwalker]

/-- Only a tick that receives the X sample leads to M_RESP, and it latches the index (R222). -/
theorem step_to_resp {s t : State} (hr : s.inputs.rst = false) (h : step s = .next t) (hresp : t.mState = .resp) :
    s.mState = .reqX ∧ s.inputs.adcAck = true ∧ t.idxLat = mapIndex s.inputs.adcData s.yLat := by
  obtain ⟨c, v, hc, hv, rfl, -⟩ := step_commandElements hr h
  obtain ⟨-, -, -, -, -, -, -, -, -, hvc, -⟩ := walkerStep_encoderStep_frame hv
  have hv_mState : v.mState = s.mState ∨ v.mState = .reqY := hvc ▸ (commandStep_mState hc).imp_right fun h => h.2.2
  have hmapper : (mapperStep s v).mState = .resp := hresp
  rcases mapperStep_cases s v with ⟨hs, he⟩ | ⟨-, -, he⟩ | ⟨hs, -, he⟩ | ⟨-, he⟩ | ⟨hs, hack, he⟩ | ⟨hs, -, he⟩ | ⟨-, he⟩
  on_goal 5 => exact ⟨hs, hack, by simp [he]⟩
  -- In every other branch the mapper ends elsewhere, or leaves M_STATE to a command step, which never gives M_RESP.
  all_goals simp_all

/-- Settles O52: a response lasts one tick (`step_of_resp`), after which the block, which the invariants keep out of HALTED,
is ready; and it comes from the X sample alone (`step_to_resp`). -/
theorem responseIsAOneTickPulse : Obligations.ResponseIsAOneTickPulse := by
  intro s t ⟨_, _, hbusy, _, _, _, _, _, _, hhalted⟩ hr h
  refine ⟨fun hvalid => ?_, fun hvalid => step_to_resp hr h (rspValid_iff.mp hvalid)⟩
  have hresp := rspValid_iff.mp hvalid
  have hne : s.mState ≠ .idle := by simp [hresp]
  obtain ⟨hmState, hlife, hwalker⟩ := step_of_resp (hbusy hne).2 hr hresp h
  exact ⟨by simp [State.rspValid, hmState], cmdReady_iff.mpr ⟨fun hh => hne (hhalted (hlife ▸ hh)), hwalker, hmState⟩⟩

end Sys2Proof.Machine
end

section
/-! Family 60_exceptions: the accepted illegal word (R243), the one record a command step can set (R247), the records that
stay until reset (R249), the lifecycle (R252), and the halted block (R250). -/

namespace Sys2Proof.Machine

/-! The accepted illegal word (R243). -/

theorem commandStep_of_illegal {s : State} {why : IllegalWord} (haccepts : s.accepts = true)
    (hdecode : decode s.inputs.cmdWord = .illegal why) :
    commandStep s = .next (raiseFault .illegalCommand s) := by
  simp [commandStep, haccepts, hdecode]

/-- Whatever word a tick accepts, walker and mapper are at rest in it: only the encoder and the wire observer act beside the
command step. -/
theorem step_of_accepts_word {s c : State} (haccepts : s.accepts = true) (hc : commandStep s = .next c) :
    step s = .next (advance s (lowRunStep s (encoderStep s c))) := by
  obtain ⟨-, hwalker, hidle⟩ := idle_of_accepts haccepts
  rw [step_of_no_reset (accepts_iff.mp haccepts).1 hc (walkerStep_inactive _ hwalker), mapperStep_of_idle _ hidle]

/-- Settles O9: the command step raises IllegalCommand, whose record is ERR_ILLEGAL, and the agents of the tick leave that
record and the three elements behind `cmd_ready` alone. -/
theorem illegalWordRecordsOnlyItsFlag : Obligations.IllegalWordRecordsOnlyItsFlag := by
  intro s why haccepts hdecode
  obtain ⟨hlife, hwalker, hidle⟩ := idle_of_accepts haccepts
  exact ⟨_, rfl, step_of_accepts_word haccepts (commandStep_of_illegal haccepts hdecode), by simp,
    cmdReady_iff.mpr (by simp [hlife, hwalker, hidle])⟩

/-! The fault flags (R247, R249). -/

/-- The three fault flags are the same in both states. -/
structure SameFlags (s t : State) : Prop where
  errIndex : t.errIndex = s.errIndex
  errIllegal : t.errIllegal = s.errIllegal
  errState : t.errState = s.errState

/-- A command step raises one fault and does nothing else, or leaves the fault flags alone. -/
theorem commandStep_raises_or_sameFlags {s t : State} (h : commandStep s = .next t) :
    (∃ f, t = raiseFault f s) ∨ SameFlags s t := by
  rcases commandStep_writes h with rfl | ⟨-, rfl | rfl | rfl | ⟨_, -, -, rfl⟩ | hother⟩
  · exact .inr ⟨rfl, rfl, rfl⟩
  · exact .inl ⟨_, rfl⟩
  · exact .inl ⟨_, rfl⟩
  · exact .inl ⟨_, rfl⟩
  · exact .inr ⟨initDriver_errIndex .., initDriver_errIllegal .., initDriver_errState ..⟩
  · rcases hother with ⟨_, _, _, _, -, -, -, rfl⟩ | ⟨-, -, rfl⟩ | ⟨-, -, rfl⟩ | ⟨-, rfl⟩ | ⟨-, -, rfl⟩ <;>
      exact .inr ⟨rfl, rfl, rfl⟩

/-- No command step clears a fault flag. -/
theorem commandStep_keeps_flags {s t : State} (h : commandStep s = .next t) :
    (s.errIndex = true → t.errIndex = true) ∧ (s.errIllegal = true → t.errIllegal = true) ∧
    (s.errState = true → t.errState = true) := by
  rcases commandStep_raises_or_sameFlags h with ⟨f, rfl⟩ | ⟨hindex, hillegal, hstate⟩
  · simp +contextual
  · exact ⟨hindex.trans, hillegal.trans, hstate.trans⟩

/-- Settles O53: without reset the flags are the command step's, which clears none, and HALTED is kept like every lifecycle
state but UNINIT (`step_sameHandle`); a reset tick leads to the reset state. -/
theorem faultFlagsAreSticky : Obligations.FaultFlagsAreSticky := by
  refine fun s t h => ⟨fun hr => ?_, fun hr => ?_⟩
  · obtain ⟨c, _, hc, -, -, -, -, -, -, -, -, hindex, hillegal, hstate⟩ := step_commandElements hr h
    obtain ⟨kindex, killegal, kstate⟩ := commandStep_keeps_flags hc
    exact ⟨fun hs => hindex.trans (kindex hs), fun hs => hillegal.trans (killegal hs),
      fun hs => hstate.trans (kstate hs), fun hs => (step_sameHandle (by simp [hs]) hr h).life.trans hs⟩
  · cases h.symm.trans (step_of_reset hr)
    exact ⟨rfl, rfl, rfl, rfl⟩

/-- A fault that newly sets a flag leaves the other two flags and LIFE alone: each flag is the record of one fault (R240). -/
theorem raiseFault_sets_one_record (f : BlockFault) (s : State) :
    ((raiseFault f s).errIllegal ≠ s.errIllegal → (raiseFault f s).errState = s.errState ∧
      (raiseFault f s).errIndex = s.errIndex ∧ (raiseFault f s).life = s.life) ∧
    ((raiseFault f s).errState ≠ s.errState → (raiseFault f s).errIllegal = s.errIllegal ∧
      (raiseFault f s).errIndex = s.errIndex ∧ (raiseFault f s).life = s.life) ∧
    ((raiseFault f s).errIndex ≠ s.errIndex → (raiseFault f s).errIllegal = s.errIllegal ∧
      (raiseFault f s).errState = s.errState ∧ (raiseFault f s).life = s.life) := by
  cases f <;> simp

/-- Settles O56: a command step that changes a flag has raised one fault, and a fault has one record; decoding comes before
every command's own rule, and each rule tests the lifecycle first. -/
theorem faultPriority : Obligations.FaultPriority := by
  refine ⟨fun s why => commandStep_of_illegal, fun s t h => ?_,
    fun s x r g b huninit _ => exec_setPixel_of_not_ready x r g b (by simp [huninit]),
    fun s pin hready _ => exec_drvInit_of_not_uninit pin (by simp [hready])⟩
  rcases commandStep_raises_or_sameFlags h with ⟨f, rfl⟩ | ⟨hindex, hillegal, hstate⟩
  · exact raiseFault_sets_one_record f s
  · exact ⟨fun hne => absurd hillegal hne, fun hne => absurd hstate hne, fun hne => absurd hindex hne⟩

/-! The lifecycle and the mapper's configuration (R24, R25, R252). -/

/-- DRV_INIT from UNINIT ends in READY with a claim and in HALTED without. -/
theorem initDriver_life (c : Option (BitVec 1 × Nat)) (pin : PinNumber) (s : State) :
    ((initDriver c pin s).life = .ready ∧ c ≠ none) ∨ ((initDriver c pin s).life = .halted ∧ c = none) := by
  cases c with
  | none => exact .inr ⟨rfl, rfl⟩
  | some d => exact .inl ⟨rfl, by simp⟩

/-- Of the command steps only a DRV_INIT in UNINIT moves LIFE. -/
theorem commandStep_life {s c : State} (h : commandStep s = .next c) :
    c.life = s.life ∨ ∃ pin, s.Accepts (.drvInit pin) ∧ s.life = .uninit ∧
      c = initDriver (claim s.params.slots s.inputs.seqFree0 s.inputs.seqFree1) pin s := by
  rcases commandStep_writes h with rfl | ⟨-, rfl | rfl | rfl | ⟨pin, haccepts, huninit, rfl⟩ |
    ⟨_, _, _, _, -, -, -, rfl⟩ | ⟨-, -, rfl⟩ | ⟨-, -, rfl⟩ | ⟨-, rfl⟩ | ⟨-, -, rfl⟩⟩
  on_goal 5 => exact .inr ⟨pin, haccepts, huninit, rfl⟩
  all_goals exact .inl rfl

/-- Of the command steps only a MAP_INIT writes MAP_READY. -/
theorem commandStep_mapReady {s c : State} (h : commandStep s = .next c) :
    c.mapReady = s.mapReady ∨ s.Accepts .mapInit ∧ c.mapReady = true := by
  rcases commandStep_writes h with rfl | ⟨-, rfl | rfl | rfl | ⟨_, -, -, rfl⟩ | ⟨_, _, _, _, -, -, -, rfl⟩ | ⟨-, -, rfl⟩ |
    ⟨-, -, rfl⟩ | ⟨haccepts, rfl⟩ | ⟨-, -, rfl⟩⟩
  on_goal 9 => exact .inr ⟨haccepts, rfl⟩
  all_goals exact .inl (by simp)

/-- Settles O54: after a tick without reset LIFE and MAP_READY are those of the command step, and of its effects only
`initDriver` and MAP_INIT's write touch them. -/
theorem lifecycleTransitions : Obligations.LifecycleTransitions := by
  intro s t hr h
  obtain ⟨c, _, hc, -, -, -, hlife, hmapReady, -⟩ := step_commandElements hr h
  rw [hlife, hmapReady]
  refine ⟨fun hne => ?_, fun hne => ?_⟩
  · obtain ⟨pin, haccepts, huninit, rfl⟩ := (commandStep_life hc).resolve_left hne
    exact ⟨huninit, ⟨pin, haccepts⟩, initDriver_life _ pin s⟩
  · exact ((commandStep_mapReady hc).resolve_left hne).symm

/-! The halted block (R250). -/

/-- In HALTED the invariants leave nothing in progress. -/
theorem quiescent_of_halted {s : State} (hinv : s.Inv) (hhalted : s.life = .halted) : s.Quiescent := by
  obtain ⟨-, hwalker, -, -, hwire, -, -, -, -, hmapper⟩ := hinv
  obtain ⟨hfifo, hidle⟩ := hwire (by simp [hhalted])
  refine ⟨Bool.eq_false_iff.mpr fun hactive => ?_, hmapper hhalted, hfifo, hidle⟩
  obtain ⟨hready, -⟩ := hwalker hactive
  cases hhalted.symm.trans hready

/-- A tick without reset of a quiescent halted block does no more than count a low tick, whatever is presented. -/
theorem step_of_halted {s : State} (hhalted : s.life = .halted) (hquiet : s.Quiescent) (hr : s.inputs.rst = false) :
    step s = .next (advance s (lowRunStep s s)) := by
  obtain ⟨hwalker, hmapper, hfifo, hidle⟩ := hquiet
  have hagents : walkerStep s (encoderStep s s) = .next s := by
    rw [walkerStep_inactive _ hwalker, encoderStep_idle s hidle hfifo]
  rw [step_of_no_reset hr (commandStep_of_halted hhalted) hagents, mapperStep_of_idle s hmapper]

/-- So a quiescent halted block stays one, with the STATUS it has, for as long as no reset comes. -/
theorem runTicks_of_halted (n : Nat) {s : State} (hhalted : s.life = .halted) (hquiet : s.Quiescent)
    (hr : s.NoReset n) : ∃ t, runTicks n s = .next t ∧ t.life = .halted ∧ t.Quiescent ∧ t.status = s.status := by
  induction n generalizing s with
  | zero => exact ⟨s, rfl, hhalted, hquiet, rfl⟩
  | succ n ih =>
    have hstep := step_of_halted hhalted hquiet (hr 0 n.succ_pos)
    rw [runTicks_succ hstep]
    exact ih hhalted hquiet (noReset_of_step hstep hr).2

/-- STATUS of a quiescent halted block: FATAL is 1, DRV_READY and BUSY are 0, and MAP_READY and the flags are free. -/
theorem status_of_halted {s : State} (hhalted : s.life = .halted) (hquiet : s.Quiescent) :
    s.status = (0b00001000#8 ||| (s.status &&& 0b01110010#8)) := by
  obtain ⟨hwalker, hmapper, -, -⟩ := hquiet
  simp only [State.status, State.busy, hhalted, hwalker, hmapper]
  generalize s.errState = errState, s.errIllegal = errIllegal, s.errIndex = errIndex, s.mapReady = mapReady
  decide +revert

/-- Settles O55: the invariants make a halted block quiescent, ticks without reset keep it so (`runTicks_of_halted`), and the
outputs are those of the state it ends in. -/
theorem haltedUntilReset : Obligations.HaltedUntilReset := by
  intro s n hinv hhalted hr
  obtain ⟨t, hrun, hlife, hquiet, hstatus⟩ := runTicks_of_halted n hhalted (quiescent_of_halted hinv hhalted) hr
  have ⟨_, hmapper, _, hidle⟩ := hquiet
  exact ⟨t, hrun, hlife, by simp [State.cmdReady, hlife], dout_of_idle hidle, by simp [State.seqClaimed, hlife],
    by simp [State.rspValid, hmapper], hstatus ▸ status_of_halted hlife hquiet⟩

end Sys2Proof.Machine
end

section
/-! Family 70_reset_and_hazards: the outputs of the reset state (R281), and the tick that reaches it (R280). -/

namespace Sys2Proof.Machine

/-! The reset state, output by output: each follows from the elements that R40 gives a value. -/

section
variable (p : Config.Params) (e : List Inputs) (n : Nat)

@[simp] theorem resetOf_dout : (State.resetOf p e n).dout = false := dout_of_idle (resetOf_eRun p e n)

@[simp] theorem resetOf_cmdReady : (State.resetOf p e n).cmdReady = true :=
  cmdReady_iff.mpr ⟨by simp, resetOf_wActive p e n, resetOf_mState p e n⟩

@[simp] theorem resetOf_rspValid : (State.resetOf p e n).rspValid = false := by simp [State.rspValid]

@[simp] theorem resetOf_adcReq : (State.resetOf p e n).adcReq = false := by simp [State.adcReq]

@[simp] theorem resetOf_adcEn : (State.resetOf p e n).adcEn = 0b00#2 := by simp [State.adcEn]

@[simp] theorem resetOf_seqClaimed : (State.resetOf p e n).seqClaimed = false := by simp [State.seqClaimed]

@[simp] theorem resetOf_status : (State.resetOf p e n).status = 0x00#8 := by simp [State.status, State.busy]

end

/-- Settles O6: a tick with `rst = 1` is `applyReset` whatever the state was (`step_of_reset`), and that is a `resetOf`, whose
elements and outputs are known one by one. -/
theorem resetTickGivesResetState : Obligations.ResetTickGivesResetState := by
  intro s hr
  refine ⟨applyReset s, step_of_reset hr, ?_⟩
  simp [applyReset]

end Sys2Proof.Machine
end

section
/-! Encoding (30_encoding.md): decoder and encoder are inverse to each other on the legal words (R97), and the illegal words
are known by their fields (R95). -/

namespace Sys2Proof

/-! A format X word is its five fields, one after the other (R91). -/

/-- SET_PIXEL's encoding, which is or-ed together from shifted operands, has its fields side by side. -/
theorem encode_setPixel_eq_append (x : PixIndex) (r g b : Byte) :
    encode (.setPixel x r g b) = 0b001#3 ++ x ++ r ++ g ++ b := by
  unfold encode
  apply BitVec.eq_of_getLsbD_eq
  intro k hk
  have hop : (0x20000000#32).getLsbD k = (decide (29 ≤ k) && (0b001#3).getLsbD (k - 29)) := by
    revert k; decide
  simp only [BitVec.getLsbD_or, BitVec.getLsbD_shiftLeft, BitVec.getLsbD_setWidth, BitVec.getLsbD_append, hop, hk]
  -- Both sides now read one operand at a distance from `k`; the distances are the same sums of field widths.
  rw [show k - 29 = k - 8 - 8 - 8 - 5 by omega, show k - 24 = k - 8 - 8 - 8 by omega, show k - 16 = k - 8 - 8 by omega]
  grind

theorem append_formatX_fields (w : Word) :
    opField w ++ w.extractLsb' 24 5 ++ w.extractLsb' 16 8 ++ w.extractLsb' 8 8 ++ w.extractLsb' 0 8 = w := by
  unfold opField
  rw [BitVec.extractLsb'_append_extractLsb'_eq_extractLsb' (by rfl),
    BitVec.extractLsb'_append_extractLsb'_eq_extractLsb' (by rfl),
    BitVec.extractLsb'_append_extractLsb'_eq_extractLsb' (by rfl),
    BitVec.extractLsb'_append_extractLsb'_eq_extractLsb' (by rfl), BitVec.extractLsb'_eq_self]

/-- Format X reads the four fields after the opcode. -/
theorem decodeX_append (op : BitVec 3) (x : PixIndex) (r g b : Byte) :
    decodeX (op ++ x ++ r ++ g ++ b) = .command (.setPixel x r g b) := by
  have hx : (op ++ x ++ r ++ g ++ b).extractLsb' 24 5 = x := by
    rw [BitVec.extractLsb'_append_eq_of_le (by decide), BitVec.extractLsb'_append_eq_of_le (by decide)]
    exact (BitVec.extractLsb'_append_eq_of_le (by decide)).trans BitVec.extractLsb'_append_eq_right
  have hr : (op ++ x ++ r ++ g ++ b).extractLsb' 16 8 = r := by
    rw [BitVec.extractLsb'_append_eq_of_le (by decide)]
    exact (BitVec.extractLsb'_append_eq_of_le (by decide)).trans BitVec.extractLsb'_append_eq_right
  have hg : (op ++ x ++ r ++ g ++ b).extractLsb' 8 8 = g :=
    (BitVec.extractLsb'_append_eq_of_le (by decide)).trans BitVec.extractLsb'_append_eq_right
  have hb : (op ++ x ++ r ++ g ++ b).extractLsb' 0 8 = b := BitVec.extractLsb'_append_eq_right
  rw [decodeX, hx, hr, hg, hb]

/-! Decoding each row's words. -/

theorem decode_of_setPixel_op {w : Word} (hop : opField w = 0b001) : decode w = decodeX w := if_pos hop

theorem decode_of_drvInit_fields {w : Word} (hop : opField w = 0b000) (hz : zeroFieldP w = 0) :
    decode w = .command (.drvInit (w.extractLsb' 0 5)) := by
  simp [decode, decodeP, hop, hz]

/-- Settles O1: the encoding lies in its own row (`Laws.OpField`), and the row's format reads the operands back. -/
theorem decodeOfEncodeIsIdentity : Obligations.DecodeOfEncodeIsIdentity := by
  rintro i -
  cases i with
  | drvInit pin =>
    obtain ⟨hop, hz⟩ := matchesRow_drvInit_iff.1 (Laws.OpField.drvInit pin)
    rw [decode_of_drvInit_fields hop hz]
    simp [encode, BitVec.extractLsb'_setWidth_of_le]
  | setPixel x r g b =>
    rw [decode_of_setPixel_op (matchesRow_setPixel_iff.1 (Laws.OpField.setPixel x r g b)), encode_setPixel_eq_append,
      decodeX_append]
  | clear | transmit | mapInit | readIndex => decide

/-- Settles O2: a format Z word is its row's match; in formats X and P the word is its fields side by side, which are those
of the encoding. -/
theorem encodeOfDecodeIsIdentity : Obligations.EncodeOfDecodeIsIdentity := by
  intro w i h
  have hrow := matchesRow_of_decode h
  cases i with
  | drvInit pin =>
    obtain ⟨hop, hz⟩ := matchesRow_drvInit_iff.1 hrow
    rw [decode_of_drvInit_fields hop hz] at h
    cases h
    obtain ⟨hop', hz'⟩ := matchesRow_drvInit_iff.1 (Laws.OpField.drvInit (w.extractLsb' 0 5))
    rw [word_eq_iff_fields, hop, hop', ← zeroFieldP_append_pin, ← zeroFieldP_append_pin w, hz, hz']
    simp [encode, BitVec.extractLsb'_setWidth_of_le]
  | setPixel x r g b =>
    have hop := matchesRow_setPixel_iff.1 hrow
    rw [decode_of_setPixel_op hop] at h
    cases h
    rw [encode_setPixel_eq_append]
    conv_rhs => rw [← append_formatX_fields w, hop]
    rfl
  | clear | transmit | mapInit | readIndex => exact (hrow.symm.trans BitVec.and_allOnes).symm ▸ rfl

/-! The illegal words (R95). -/

theorem decodeZ_illegal_iff {w : Word} {i : Instr} : (∃ why, decodeZ w i = .illegal why) ↔ zeroFieldZ w ≠ 0 := by
  unfold decodeZ; split <;> simp_all

theorem decodeP_illegal_iff {w : Word} : (∃ why, decodeP w = .illegal why) ↔ zeroFieldP w ≠ 0 := by
  unfold decodeP; split <;> simp_all

theorem opField_cases (w : Word) :
    opField w = 0b000 ∨ opField w = 0b001 ∨ opField w = 0b010 ∨ opField w = 0b011 ∨ opField w = 0b100 ∨
    opField w = 0b101 ∨ opField w = 0b110 ∨ opField w = 0b111 := by
  generalize opField w = op
  revert op; decide

/-- Settles O4, by the eight values of the operation field. -/
theorem illegalWordsByField : Obligations.IllegalWordsByField := by
  intro w
  rcases opField_cases w with h | h | h | h | h | h | h | h <;>
    simp [decode, h, decodeX, decodeZ_illegal_iff, decodeP_illegal_iff]

/-- Settles O5, by running the decoder. -/
theorem sampleWordsDecode : Obligations.SampleWordsDecode := by
  unfold Obligations.SampleWordsDecode; decide

end Sys2Proof
end

section
/-! Commands one by one: what each writes and which fault it records (R22, R100, R122, R145, R160, R211, R248). -/

namespace Sys2Proof.Machine

/-! DRV_INIT without a free slot (R122). -/

theorem firstFree_take_eq_none {l : List Bool} {n : Nat} (h : ∀ k < n, l[k]? ≠ some true) :
    firstFree (l.take n) = none := by
  rw [firstFree_eq_none, List.forall_mem_iff_forall_getElem]
  intro k hk
  obtain ⟨hkn, hkl⟩ := Nat.lt_min.mp (List.length_take ▸ hk)
  have hne := h k hkn
  rw [List.getElem?_eq_getElem hkl] at hne
  simpa using hne

/-- Settles O14: no answer of the claim is left but none, and then DRV_INIT raises NoSequencer, whose record is LIFE. -/
theorem drvInitWithoutSlotHalts : Obligations.DrvInitWithoutSlotHalts := by
  intro s pin huninit h0 h1
  have hclaim := claim_eq_none_iff.mpr ⟨firstFree_take_eq_none h0, firstFree_take_eq_none h1⟩
  rw [exec_drvInit_of_uninit pin huninit, hclaim]
  exact ⟨rfl, rfl⟩

/-! TRANSMIT and READ_INDEX as commands. -/

theorem exec_transmit_of_ready {s : State} (h : s.life = .ready) : exec .transmit s = .next (startWalker s) :=
  if_pos h

theorem exec_transmit_of_not_ready {s : State} (h : s.life ≠ .ready) :
    exec .transmit s = .next (raiseFault .wrongState s) :=
  if_neg h

theorem exec_readIndex_of_mapReady {s : State} (h : s.mapReady = true) :
    exec .readIndex s = .next { s with mState := .reqY } :=
  if_pos h

/-- Settles O25: the command is `startWalker`. -/
theorem transmitStartsTheWalker : Obligations.TransmitStartsTheWalker :=
  fun _ => exec_transmit_of_ready

/-- Settles O26: outside READY the command raises WrongState, whose record is ERR_STATE. -/
theorem transmitBeforeReady : Obligations.TransmitBeforeReady :=
  fun _ huninit => exec_transmit_of_not_ready (by simp [huninit])

/-- Settles O44: the command starts the sequencer, whose first state requests channel 1. -/
theorem readIndexRequestsYFirst : Obligations.ReadIndexRequestsYFirst :=
  fun _ hready => ⟨exec_readIndex_of_mapReady hready, rfl, rfl⟩

/-! A tick that accepts a command, and one that accepts nothing (R100). -/

/-- Settles O8: no command stops, and a tick that accepts one has walker and mapper at rest (`step_of_accepts`). -/
theorem stepRunsDecodedInstruction : Obligations.StepRunsDecodedInstruction := by
  intro s i hr hvalid hready hdecode
  obtain ⟨t, ht⟩ := exec_next i s
  exact ⟨t, ht, step_of_accepts ⟨accepts_iff.mpr ⟨hr, hvalid, hready⟩, hdecode⟩ ht⟩

/-- Settles O10: the command step leaves the state as it is, an inactive walker's step and an idle mapper's likewise. -/
theorem nothingAcceptedNothingDone : Obligations.NothingAcceptedNothingDone := by
  intro s t hr hnot h
  obtain ⟨c, v, hc, hv, rfl, hcommand⟩ := step_commandElements hr h
  obtain rfl : s = c := by simpa [commandStep_not_accepted hnot] using hc
  obtain ⟨hfb, hlife, hmapReady, hinst, hsm, hpin, hindex, hillegal, hstate⟩ := hcommand
  refine ⟨hfb, hlife, hmapReady, hinst, hsm, hpin, hindex, hillegal, hstate, fun hinactive => ?_, fun hidle => ?_⟩
  · rw [walkerStep_inactive _ hinactive] at hv
    cases hv
    simp [hinactive]
  · obtain ⟨-, -, -, -, -, -, -, -, -, hmState, hyLat, hidxLat, -⟩ := walkerStep_encoderStep_frame hv
    rw [mapperStep_of_idle v hidle]
    exact ⟨hmState.trans hidle, hyLat, hidxLat⟩

/-! The framebuffer's owner (R22, R73). -/

/-- Of the command steps only DRV_INIT, SET_PIXEL and CLEAR write FB. -/
theorem commandStep_fb {s c : State} (h : commandStep s = .next c) :
    c.fb = s.fb ∨ (∃ pin, s.Accepts (.drvInit pin)) ∨ (∃ x r g b, s.Accepts (.setPixel x r g b)) ∨ s.Accepts .clear := by
  rcases commandStep_writes h with rfl | ⟨-, rfl | rfl | rfl | ⟨pin, hinit, -⟩ | ⟨x, r, g, b, hset, -⟩ | ⟨hclear, -⟩ |
    ⟨-, -, rfl⟩ | ⟨-, rfl⟩ | ⟨-, -, rfl⟩⟩
  on_goal 5 => exact .inr (.inl ⟨pin, hinit⟩)
  on_goal 5 => exact .inr (.inr (.inl ⟨x, r, g, b, hset⟩))
  on_goal 5 => exact .inr (.inr (.inr hclear))
  all_goals exact .inl (by simp)

/-- Settles O24: after a tick without reset FB is the command step's. -/
theorem framebufferHasOneOwner : Obligations.FramebufferHasOneOwner := by
  intro s t hr h hne
  obtain ⟨c, _, hc, -, -, hfb, -⟩ := step_commandElements hr h
  exact (commandStep_fb hc).resolve_left fun hsame => hne (hfb.trans hsame)

/-! Two SET_PIXEL commands (R145). -/

theorem execAll_pair (i j : Instr) (s : State) : execAll [i, j] s = andThen (exec i s) (exec j) := by
  obtain ⟨t, ht⟩ := exec_next i s
  obtain ⟨u, hu⟩ := exec_next j t
  simp [execAll, ht, hu]

theorem writePixel_comm (s : State) {x y : PixIndex} (h : x ≠ y) (px px' : Pixel) :
    writePixel (writePixel s x px) y px' = writePixel (writePixel s y px') x px := by
  have hne : x.toNat ≠ y.toNat := fun heq => h (BitVec.eq_of_toNat_eq heq)
  simp only [writePixel, Vector.setIfInBound_comm px px' hne]

theorem writePixel_writePixel_same (s : State) (x : PixIndex) (px px' : Pixel) :
    writePixel (writePixel s x px) x px' = writePixel s x px' := by
  simp [writePixel]

/-- What a SET_PIXEL in READY leaves (R140, R141). -/
def pixelEffect (x : PixIndex) (px : Pixel) (s : State) : State :=
  if indexLegal x then writePixel s x px else raiseFault .indexRange s

theorem exec_setPixel_of_ready {s : State} (x : PixIndex) (r g b : Byte) (h : s.life = .ready) :
    exec (.setPixel x r g b) s = .next (pixelEffect x ⟨r, g, b⟩ s) := by
  simp only [exec, execSetPixel, h, pixelEffect, if_true]
  split <;> rfl

theorem pixelEffect_life (x : PixIndex) (px : Pixel) (s : State) : (pixelEffect x px s).life = s.life := by
  unfold pixelEffect; split <;> rfl

theorem pixelEffect_comm (s : State) {x y : PixIndex} (h : x ≠ y) (px px' : Pixel) :
    pixelEffect y px' (pixelEffect x px s) = pixelEffect x px (pixelEffect y px' s) := by
  unfold pixelEffect
  split <;> split
  · exact writePixel_comm s h px px'
  · rfl
  · rfl
  · rfl

theorem pixelEffect_pixelEffect_same (s : State) (x : PixIndex) (px px' : Pixel) :
    pixelEffect x px' (pixelEffect x px s) = pixelEffect x px' s := by
  unfold pixelEffect
  split
  · exact writePixel_writePixel_same s x px px'
  · rfl

/-- Settles O23: in READY each command is a `pixelEffect`; in the other states each sets ERR_STATE, once is as good as
twice. -/
theorem pixelWritesCommuteOrOverwrite : Obligations.PixelWritesCommuteOrOverwrite := by
  intro s x y r g b r' g' b'
  simp only [execAll_pair]
  by_cases hready : s.life = .ready
  · simp only [exec_setPixel_of_ready, andThen_next, pixelEffect_life, hready, Host.Outcome.next.injEq]
    exact ⟨fun hne => pixelEffect_comm s hne _ _, pixelEffect_pixelEffect_same s x _ _⟩
  · have hfault (z : PixIndex) (r g b : Byte) := exec_setPixel_of_not_ready z r g b hready
    have hfault' (z : PixIndex) (r g b : Byte) :=
      exec_setPixel_of_not_ready (s := raiseFault .wrongState s) z r g b hready
    simp only [hfault, hfault', andThen_next]
    exact ⟨fun _ => trivial, rfl⟩

/-! Faults are precise (R248). -/

/-- A command raises one fault, never IllegalCommand, and does nothing else; or it leaves the fault flags alone and does not
halt the block. -/
theorem exec_raises_or_records_nothing {i : Instr} {s t : State} (h : exec i s = .next t) :
    (∃ f ≠ .illegalCommand, t = raiseFault f s) ∨ SameFlags s t ∧ (t.life = .halted → s.life = .halted) := by
  rcases exec_cases h with ⟨pin, -, -, rfl⟩ | ⟨_, _, _, _, -, -, -, rfl⟩ | ⟨_, _, _, _, -, -, -, rfl⟩ | ⟨-, -, rfl⟩ |
    ⟨-, -, rfl⟩ | ⟨-, rfl⟩ | ⟨-, -, rfl⟩ | ⟨rfl, -⟩
  · rcases initDriver_cases (claim s.params.slots s.inputs.seqFree0 s.inputs.seqFree1) pin s with ⟨-, he⟩ | ⟨d, -, he⟩ <;>
      rw [he]
    · exact .inl ⟨_, by decide, rfl⟩
    · exact .inr ⟨⟨rfl, rfl, rfl⟩, by simp⟩
  · exact .inr ⟨⟨rfl, rfl, rfl⟩, id⟩
  · exact .inl ⟨_, by decide, rfl⟩
  · exact .inr ⟨⟨rfl, rfl, rfl⟩, id⟩
  · exact .inr ⟨⟨rfl, rfl, rfl⟩, id⟩
  · exact .inr ⟨⟨rfl, rfl, rfl⟩, id⟩
  · exact .inr ⟨⟨rfl, rfl, rfl⟩, id⟩
  · exact .inl ⟨_, by decide, rfl⟩

/-- Settles O57: a command that records something has raised a fault, and each fault has one record. -/
theorem faultsArePrecise : Obligations.FaultsArePrecise := by
  intro i s t h
  rcases exec_raises_or_records_nothing h with ⟨f, hf, rfl⟩ | ⟨⟨hindex, hillegal, hstate⟩, hhalted⟩
  · cases f with
    | illegalCommand => exact absurd rfl hf
    | noSequencer | indexRange | wrongState => simp +contextual [raiseFault]
  · exact ⟨fun hne => absurd hindex hne, fun hne => absurd hstate hne, fun ht hs => absurd (hhalted ht) hs, hillegal⟩

end Sys2Proof.Machine
end

section
/-! The invariants (R39): they hold at reset, and each part of a tick keeps them: the command step, the encoder, the walker
and the mapper sequencer, in the order in which the tick writes. -/

namespace Sys2Proof.Machine

theorem resetOf_inv (p : Config.Params) (e : List Inputs) (n : Nat) : (State.resetOf p e n).Inv := by
  simp [State.Inv]

/-- Settles O7: nothing is in progress after reset and the queue is empty. -/
theorem invariantsHoldAtReset : Obligations.InvariantsHoldAtReset :=
  ⟨resetOf_inv _ _ _, resetOf_inv⟩

/-! The command step. -/

theorem raiseFault_inv {f : BlockFault} (hf : f ≠ .noSequencer) {s : State} (hinv : s.Inv) : (raiseFault f s).Inv := by
  simpa [State.Inv, hf] using hinv

/-- DRV_INIT in UNINIT: the queue is empty and the encoder idle, and the claimed slot exists. -/
theorem initDriver_inv {s : State} {f0 f1 : List Bool} (pin : PinNumber) (hinv : s.Inv) (huninit : s.life = .uninit)
    (hwalker : s.wActive = false) (hidle : s.mState = .idle) :
    (initDriver (claim s.params.slots f0 f1) pin s).Inv := by
  obtain ⟨-, -, -, -, hwire, -⟩ := hinv
  obtain ⟨hfifo, hencoder⟩ := hwire (by simp [huninit])
  cases hclaim : claim s.params.slots f0 f1 with
  | none => simp [State.Inv, initDriver, hwalker, hidle, hfifo, hencoder]
  | some c => simp [State.Inv, initDriver, hwalker, hidle, hfifo, hencoder, claim_slot_lt hclaim]

theorem commandStep_inv {s c : State} (hinv : s.Inv) (h : commandStep s = .next c) : c.Inv := by
  rcases commandStep_writes h with rfl | ⟨haccepts, hwrites⟩
  · exact hinv
  obtain ⟨hlive, hwalker, hidle⟩ := idle_of_accepts haccepts
  rcases hwrites with rfl | rfl | rfl | ⟨pin, -, huninit, rfl⟩ | ⟨_, _, _, _, -, -, -, rfl⟩ | ⟨-, -, rfl⟩ |
    ⟨-, hready, rfl⟩ | ⟨-, rfl⟩ | ⟨-, hready, rfl⟩
  · exact raiseFault_inv (by decide) hinv
  · exact raiseFault_inv (by decide) hinv
  · exact raiseFault_inv (by decide) hinv
  · exact initDriver_inv pin hinv huninit hwalker hidle
  · simpa [State.Inv] using hinv
  · simpa [State.Inv] using hinv
  all_goals
    obtain ⟨-, -, -, hlen, hwire, hrun, hlow, -, hslot, -⟩ := hinv
    simp_all [State.Inv]

/-! The agents. Each writes into the state the tick has reached so far, `t`, and reads the state at its start, `s`. -/

/-- Loading a word: the queue loses its head, and the encoder stands at the first tick of 8 bits. -/
theorem loadWord_inv {t : State} (hinv : t.Inv) (hready : t.life = .ready) (w : Word) (running : Bool) :
    { loadWord w t with eRun := running }.Inv := by
  obtain ⟨hfb, hwalk, hmap, hlen, -, -, hlow, hidx, hslot, hhalt⟩ := hinv
  refine ⟨hfb, hwalk, hmap, ?_, fun hne => absurd hready hne, fun _ => by simp,
    fun w hw => hlow w (List.mem_of_mem_tail hw), hidx, hslot, hhalt⟩
  exact Nat.le_trans (by simp) hlen

/-- Words are queued in READY only. -/
theorem ready_of_fifo_ne_nil {t : State} (hinv : t.Inv) (hfifo : t.fifo ≠ []) : t.life = .ready := by
  obtain ⟨-, -, -, -, hwire, -⟩ := hinv
  exact by_contra fun hne => hfifo (hwire hne).1

theorem encoderStep_inv {s t : State} (hsame : SameAgents s t) (hinv : t.Inv) : (encoderStep s t).Inv := by
  have hload {w : Word} {rest : List Word} (hfifo : s.fifo = w :: rest) : t.life = .ready :=
    ready_of_fifo_ne_nil hinv (by simp [hsame.fifo, hfifo])
  have ⟨hfb, hwalk, hmap, hlen, hwire, hrun, hlow, hidx, hslot, hhalt⟩ := hinv
  rw [hsame.eRun, hsame.eLeft, hsame.eCnt] at hrun
  rcases encoderStep_cases s t with ⟨he, hcnt, heq⟩ | ⟨he, hcnt, hleft, heq⟩ | ⟨-, -, -, w, rest, hfifo, heq⟩ |
    ⟨-, -, -, -, heq⟩ | ⟨-, w, rest, hfifo, heq⟩ | ⟨-, -, heq⟩ <;> rw [heq]
  · obtain ⟨hone, height, -⟩ := hrun he
    refine ⟨hfb, hwalk, hmap, hlen, hwire, fun _ => ⟨hsame.eLeft ▸ hone, hsame.eLeft ▸ height, ?_⟩, hlow, hidx, hslot,
      hhalt⟩
    change (s.eCnt + 1).toNat ≤ 9
    bv_omega
  · obtain ⟨-, height, -⟩ := hrun he
    refine ⟨hfb, hwalk, hmap, hlen, hwire, fun _ => ?_, hlow, hidx, hslot, hhalt⟩
    change 1 ≤ (s.eLeft - 1).toNat ∧ (s.eLeft - 1).toNat ≤ 8 ∧ 0 ≤ 9
    bv_omega
  · exact loadWord_inv hinv (hload hfifo) w t.eRun
  · exact ⟨hfb, hwalk, hmap, hlen, fun hne => ⟨(hwire hne).1, rfl⟩, fun h => absurd h Bool.false_ne_true, hlow, hidx,
      hslot, hhalt⟩
  · exact loadWord_inv hinv (hload hfifo) w true
  · exact hinv

/-- A word to push is the colour value over 24 zeros (R67). -/
theorem txWord_eq_append (v : Byte) : txWord v = v ++ 0#24 := by
  unfold txWord
  apply BitVec.eq_of_getLsbD_eq
  intro k hk
  simp only [BitVec.getLsbD_shiftLeft, BitVec.getLsbD_setWidth, BitVec.getLsbD_append, BitVec.getLsbD_zero]
  by_cases hlow : k < 24
  · simp [hlow]
  · have : k - 24 < 32 := by omega
    simp [hk, hlow, this]

theorem txWord_low (v : Byte) : (txWord v).extractLsb' 0 24 = 0 := by
  rw [txWord_eq_append]; exact BitVec.extractLsb'_append_eq_right

/-- The walker's next position is again one of R29's. -/
theorem walkerAdvance_inv {s t : State} (hinv : t.Inv) (hpix : t.wPix = s.wPix) (hch : t.wCh = s.wCh) :
    (walkerAdvance s t).Inv := by
  obtain ⟨hfb, hwalk, hmap, hrest⟩ := hinv
  rw [hpix, hch] at hwalk
  rcases walkerAdvance_cases s t with ⟨hlt, heq⟩ | ⟨-, hlt, heq⟩ | ⟨-, -, heq⟩ <;> rw [heq]
  · refine ⟨hfb, fun ha => ?_, hmap, hrest⟩
    obtain ⟨hready, hidle, hle, -⟩ := hwalk ha
    refine ⟨hready, hidle, hpix ▸ hle, ?_⟩
    change (s.wCh + 1).toNat ≤ 2
    bv_omega
  · refine ⟨hfb, fun ha => ?_, hmap, hrest⟩
    obtain ⟨hready, hidle, -, -⟩ := hwalk ha
    refine ⟨hready, hidle, ?_, by simp⟩
    change (s.wPix + 1).toNat ≤ 24
    bv_omega
  · exact ⟨hfb, fun ha => absurd ha Bool.false_ne_true, fun hm => ⟨(hmap hm).1, rfl⟩, hrest⟩

theorem fifoPush_txWord_inv {t : State} (hinv : t.Inv) (hready : t.life = .ready)
    (hroom : t.fifo.length < t.params.fifoDepth) (v : Byte) : (fifoPush t (txWord v)).Inv := by
  obtain ⟨hfb, hwalk, hmap, -, -, hrun, hlow, hidx, hslot, hhalt⟩ := hinv
  refine ⟨hfb, hwalk, hmap, ?_, fun hne => absurd hready hne, hrun, fun w hw => ?_, hidx, hslot, hhalt⟩
  · simpa using hroom
  · rcases List.mem_append.mp hw with hw | hw
    · exact hlow w hw
    · rw [List.mem_singleton.mp hw, txWord_low]

/-- The walker pushes into the queue as the encoder left it, which is no longer than the queue it looked at. -/
theorem walkerStep_encoderStep_inv {s c v : State} (hinv : s.Inv) (hc : commandStep s = .next c)
    (hv : walkerStep s (encoderStep s c) = .next v) : v.Inv := by
  have he := encoderStep_inv (commandStep_sameAgents hc) (commandStep_inv hinv hc)
  rcases walkerStep_cases hv with ⟨-, rfl⟩ | ⟨hpush, b, -, rfl⟩
  · exact he
  · obtain ⟨hactive, hroom⟩ := walkerPushes_iff.mp hpush
    obtain rfl : s = c := by simpa [commandStep_of_walker hactive] using hc
    obtain ⟨-, hwalk, -⟩ := hinv
    refine walkerAdvance_inv (fifoPush_txWord_inv he (by simp [(hwalk hactive).1]) ?_ b) (by simp) (by simp)
    rw [encoderStep_fifo, encoderStep_params]
    split
    · exact Nat.lt_of_le_of_lt (by simp) hroom
    · exact hroom

/-- The elements the mapper sequencer writes, in a busy mapper. -/
theorem inv_of_busy_mapper {t : State} (hinv : t.Inv) (hbusy : t.mState ≠ .idle) (m : MState) (y : Sample) {i : PixIndex}
    (hi : m = .resp → i.toNat ≤ 24) : { t with mState := m, yLat := y, idxLat := i }.Inv := by
  obtain ⟨hfb, -, hmap, hlen, hwire, hrun, hlow, -, hslot, hhalt⟩ := hinv
  obtain ⟨hready, hrest⟩ := hmap hbusy
  exact ⟨hfb, by simp [hrest], fun _ => ⟨hready, hrest⟩, hlen, hwire, hrun, hlow, hi, hslot,
    fun hh => absurd (hhalt hh) hbusy⟩

/-- The mapper sequencer moves only where it is busy, and then no command step has touched it. -/
theorem mapperStep_inv {s t : State} (hinv : t.Inv) (hmState : s.mState ≠ .idle → t.mState = s.mState) :
    (mapperStep s t).Inv := by
  have hbusy {m : MState} (hs : s.mState = m) (hne : m ≠ .idle) : t.mState ≠ .idle := by
    rw [hmState (hs ▸ hne), hs]; exact hne
  rcases mapperStep_cases s t with ⟨-, heq⟩ | ⟨hs, -, heq⟩ | ⟨-, -, heq⟩ | ⟨hs, heq⟩ | ⟨hs, -, heq⟩ | ⟨-, -, heq⟩ |
    ⟨hs, heq⟩ <;> rw [heq]
  · exact hinv
  · exact inv_of_busy_mapper hinv (hbusy hs (by decide)) .gap s.inputs.adcData nofun
  · exact hinv
  · exact inv_of_busy_mapper hinv (hbusy hs (by decide)) .reqX t.yLat nofun
  · exact inv_of_busy_mapper hinv (hbusy hs (by decide)) .resp t.yLat fun _ => mapIndexIsOntoTheIndices.1 _ _
  · exact hinv
  · exact inv_of_busy_mapper hinv (hbusy hs (by decide)) .idle t.yLat nofun

/-- No command step, and neither encoder nor walker, moves a busy mapper. -/
theorem mState_of_busy {s c v : State} (hc : commandStep s = .next c) (hv : walkerStep s (encoderStep s c) = .next v)
    (hne : s.mState ≠ .idle) : v.mState = s.mState := by
  obtain rfl : s = c := by simpa [commandStep_of_mapper hne] using hc
  obtain ⟨-, -, -, -, -, -, -, -, -, hmState, -⟩ := walkerStep_encoderStep_frame hv
  exact hmState

/-- Settles O58: the parts of a tick keep the invariants one after the other, a reset tick ends in the reset state, and
outside UNINIT only reset moves LIFE (`step_sameHandle`). -/
theorem stepKeepsTheInvariants : Obligations.StepKeepsTheInvariants := by
  intro s t hinv h
  refine ⟨?_, fun hhalted hr => (step_sameHandle (by simp [hhalted]) hr h).life.trans hhalted⟩
  rcases step_cases h with ⟨-, rfl⟩ | ⟨-, c, v, hc, hv, rfl⟩
  · exact resetOf_inv _ _ _
  · exact mapperStep_inv (s := s) (walkerStep_encoderStep_inv hinv hc hv) (mState_of_busy hc hv)

/-- Settles O59: the invariants keep the walker where a word is to push. -/
theorem stepNeverStops : Obligations.StepNeverStops := by
  rintro s ⟨-, hwalk, -⟩
  exact step_next fun hactive => (hwalk hactive).2.2

end Sys2Proof.Machine
end

section
/-! Unspecified elements (R40, R42): `State.SameLive` is a simulation. Two states it relates take the same branches in every
part of a tick, and each part writes them alike, so that it holds again after the tick. -/

namespace Sys2Proof.Machine

/-! What two such states show. -/

theorem sameLive_inputs {s t : State} (h : s.SameLive t) : s.inputs = t.inputs := by
  obtain ⟨-, -, -, -, -, -, -, -, -, -, -, henv, htick, -⟩ := h
  exact inputs_congr henv htick

theorem sameLive_cmdReady {s t : State} (h : s.SameLive t) : s.cmdReady = t.cmdReady := by
  obtain ⟨hlife, -, -, -, -, hactive, -, -, hmState, -⟩ := h
  simp [State.cmdReady, hlife, hactive, hmState]

theorem sameLive_accepts {s t : State} (h : s.SameLive t) : s.accepts = t.accepts := by
  rw [State.accepts, State.accepts, sameLive_inputs h, sameLive_cmdReady h]

/-- An idle encoder holds the line low; a running one drives it from registers that are the same. -/
theorem sameLive_dout {s t : State} (h : s.SameLive t) : s.dout = t.dout := by
  obtain ⟨-, -, -, -, -, -, -, hrun, -, -, hparams, -, -, -, -, hencoder, -⟩ := h
  cases he : s.eRun with
  | false => rw [dout_of_idle he, dout_of_idle (hrun ▸ he)]
  | true =>
    obtain ⟨hsr, -, hcnt⟩ := hencoder he
    simp only [State.dout, hrun, hparams, hsr, hcnt]

theorem sameLive_observed {s t : State} (h : s.SameLive t) : s.outputs.observed = t.outputs.observed := by
  have hready := sameLive_cmdReady h
  have hdout := sameLive_dout h
  obtain ⟨hlife, hmapReady, hindex, hillegal, hstate, hactive, -, -, hmState, -, -, -, -, hdriver, -, -, -, hidx⟩ := h
  simp only [State.outputs, Outputs.observed, hready, hdout, State.status, State.busy, State.rspValid, State.seqClaimed,
    State.adcEn, State.adcReq, State.adcSel, hmapReady, hindex, hillegal, hstate, hactive, ← hmState, ← hlife]
  -- What is left are the two qualified ports: each is hidden or comes from an element that is the same.
  have hresponse : (if decide (s.mState = .resp) then some s.idxLat else none) =
      if decide (s.mState = .resp) then some t.idxLat else none := by
    split
    · rw [hidx (of_decide_eq_true ‹_›)]
    · rfl
  have hclaimed : (if decide (s.life = .ready) then some (s.inst, s.sm, s.pin) else none) =
      if decide (s.life = .ready) then some (t.inst, t.sm, t.pin) else none := by
    split
    · obtain ⟨-, hinst, hsm, hpin⟩ := hdriver (of_decide_eq_true ‹_›)
      rw [hinst, hsm, hpin]
    · rfl
  rw [hresponse, hclaimed]

/-! The command step. -/

theorem sameLive_raiseFault {s t : State} (h : s.SameLive t) (f : BlockFault) :
    (raiseFault f s).SameLive (raiseFault f t) := by
  cases f <;> simp_all [State.SameLive]

theorem sameLive_initDriver {s t : State} (h : s.SameLive t) (c : Option (BitVec 1 × Nat)) (pin : PinNumber) :
    (initDriver c pin s).SameLive (initDriver c pin t) := by
  cases c <;> simp_all [State.SameLive, initDriver]

theorem sameLive_writePixel {s t : State} (h : s.SameLive t) (x : PixIndex) (px : Pixel) :
    (writePixel s x px).SameLive (writePixel t x px) := by
  simp_all [State.SameLive]

theorem sameLive_clearPixels {s t : State} (h : s.SameLive t) : (clearPixels s).SameLive (clearPixels t) := by
  simp_all [State.SameLive]

theorem sameLive_startWalker {s t : State} (h : s.SameLive t) : (startWalker s).SameLive (startWalker t) := by
  simp_all [State.SameLive]

/-- A command takes the same branch in both states: LIFE, MAP_READY and the inputs, which decide it, are the same. -/
theorem exec_sameLive {i : Instr} {s t c : State} (h : s.SameLive t) (hc : exec i s = .next c) :
    ∃ d, exec i t = .next d ∧ c.SameLive d := by
  have hin := sameLive_inputs h
  obtain ⟨hlife, hmapReady, -, -, -, -, -, -, -, -, hparams, -⟩ := id h
  rcases exec_cases hc with ⟨pin, rfl, hl, rfl⟩ | ⟨x, r, g, b, rfl, hl, hx, rfl⟩ | ⟨x, r, g, b, rfl, hl, hx, rfl⟩ |
    ⟨rfl, hl, rfl⟩ | ⟨rfl, hl, rfl⟩ | ⟨rfl, rfl⟩ | ⟨rfl, hm, rfl⟩ | ⟨rfl, hwrong⟩
  · rw [hparams, hin]
    exact ⟨_, exec_drvInit_of_uninit pin (hlife ▸ hl), sameLive_initDriver h _ _⟩
  · exact ⟨_, exec_setPixel_of_le r g b (hlife ▸ hl) hx, sameLive_writePixel h _ _⟩
  · exact ⟨_, exec_setPixel_of_ge r g b (hlife ▸ hl) hx, sameLive_raiseFault h _⟩
  · exact ⟨_, exec_clear_of_ready (hlife ▸ hl), sameLive_clearPixels h⟩
  · exact ⟨_, exec_transmit_of_ready (hlife ▸ hl), sameLive_startWalker h⟩
  · exact ⟨_, rfl, by simp_all [State.SameLive]⟩
  · exact ⟨_, exec_readIndex_of_mapReady (hmapReady ▸ hm), by simp_all [State.SameLive]⟩
  · refine ⟨_, ?_, sameLive_raiseFault h .wrongState⟩
    rw [hlife, hmapReady] at hwrong
    rcases hwrong with ⟨pin, rfl, hl⟩ | ⟨x, r, g, b, rfl, hl⟩ | ⟨rfl, hl⟩ | ⟨rfl, hl⟩ | ⟨rfl, hm⟩
    · exact exec_drvInit_of_not_uninit pin hl
    · exact exec_setPixel_of_not_ready x r g b hl
    · exact exec_clear_of_not_ready hl
    · exact exec_transmit_of_not_ready hl
    · exact exec_readIndex_of_not_mapReady hm

theorem commandStep_sameLive {s t c : State} (h : s.SameLive t) (hc : commandStep s = .next c) :
    ∃ d, commandStep t = .next d ∧ c.SameLive d := by
  have haccepts := sameLive_accepts h
  have hin := sameLive_inputs h
  rcases commandStep_cases hc with ⟨ha, rfl⟩ | ⟨ha, i, hd, he⟩ | ⟨ha, ⟨why, hd⟩, rfl⟩
  · exact ⟨t, commandStep_not_accepted (haccepts ▸ ha), h⟩
  · obtain ⟨d, he', hlive⟩ := exec_sameLive h he
    exact ⟨d, (commandStep_accepted ⟨haccepts ▸ ha, hin ▸ hd⟩).trans he', hlive⟩
  · exact ⟨_, commandStep_of_illegal (haccepts ▸ ha) (hin ▸ hd), sameLive_raiseFault h _⟩

/-! The agents: they read the related states `s` and `t` and write into the related states `c` and `d`. -/

section
variable {s t c d : State} (h : s.SameLive t) (hwrite : c.SameLive d)
include h hwrite

/-- The registers are read while the encoder runs, and loaded whole when it starts. -/
theorem sameLive_encoderStep (hsame : c.eRun = s.eRun) : (encoderStep s c).SameLive (encoderStep t d) := by
  obtain ⟨-, -, -, -, -, -, hfifo, hrun, -, -, -, -, -, -, -, hencoder, -⟩ := h
  have hsame' : d.eRun = t.eRun := by
    obtain ⟨-, -, -, -, -, -, -, hrun', -⟩ := hwrite
    rw [← hrun', hsame, hrun]
  cases he : s.eRun with
  | false =>
    have he' : t.eRun = false := hrun ▸ he
    cases hf : s.fifo with
    | nil => rwa [encoderStep_idle c he hf, encoderStep_idle d he' (hfifo ▸ hf)]
    | cons w rest =>
      rw [encoderStep_load hsame hf (by simp [he]), encoderStep_load hsame' (hfifo ▸ hf) (by simp [he'])]
      simp_all [State.SameLive]
  | true =>
    have he' : t.eRun = true := hrun ▸ he
    obtain ⟨hsr, hleft, hcnt⟩ := hencoder he
    by_cases hcell : s.eCnt.toNat < 9
    · rw [encoderStep_inside_cell c he hcell, encoderStep_inside_cell d he' (hcnt ▸ hcell)]
      simp_all [State.SameLive]
    have hcell := Nat.le_of_not_lt hcell
    by_cases hword : 1 < s.eLeft.toNat
    · rw [encoderStep_end_of_cell c he hcell hword, encoderStep_end_of_cell d he' (hcnt ▸ hcell) (hleft ▸ hword)]
      simp_all [State.SameLive]
    have hword := Nat.le_of_not_lt hword
    cases hf : s.fifo with
    | nil =>
      rw [encoderStep_end_of_last_word c he hcell hword hf,
        encoderStep_end_of_last_word d he' (hcnt ▸ hcell) (hleft ▸ hword) (hfifo ▸ hf)]
      simp_all [State.SameLive]
    | cons w rest =>
      rw [encoderStep_load hsame hf fun _ => ⟨hcell, hword⟩,
        encoderStep_load hsame' (hfifo ▸ hf) fun _ => ⟨hcnt ▸ hcell, hleft ▸ hword⟩]
      simp_all [State.SameLive]

theorem sameLive_walkerAdvance (hactive : s.wActive = true) : (walkerAdvance s c).SameLive (walkerAdvance t d) := by
  obtain ⟨-, -, -, -, -, -, -, -, -, -, -, -, -, -, hpos, -⟩ := h
  obtain ⟨hpix, hch⟩ := hpos hactive
  simp only [walkerAdvance, ← hpix, ← hch]
  (repeat' split) <;> simp_all [State.SameLive]

theorem sameLive_walkerStep (hready : s.wActive = true → s.life = .ready) {u : State} (hu : walkerStep s c = .next u) :
    ∃ v, walkerStep t d = .next v ∧ u.SameLive v := by
  have hpush : t.walkerPushes = s.walkerPushes := by
    obtain ⟨-, -, -, -, -, hactive, hfifo, -, -, -, hparams, -⟩ := h
    simp only [State.walkerPushes, State.fifoHasRoom, hactive, hfifo, hparams]
  rcases walkerStep_cases hu with ⟨hp, rfl⟩ | ⟨hp, b, hb, rfl⟩
  · exact ⟨d, by simp [walkerStep, hpush, hp], hwrite⟩
  · obtain ⟨hactive, -⟩ := walkerPushes_iff.mp hp
    have hadvance := sameLive_walkerAdvance (c := fifoPush c (txWord b)) (d := fifoPush d (txWord b)) h
      (by simp_all [State.SameLive]) hactive
    obtain ⟨-, -, -, -, -, -, -, -, -, -, -, -, -, hdriver, hpos, -⟩ := h
    obtain ⟨hpix, hch⟩ := hpos hactive
    have hfb := (hdriver (hready hactive)).1
    rw [hfb, hpix, hch] at hb
    exact ⟨_, by simp [walkerStep, hpush, hp, hb], hadvance⟩

omit h in
/-- The mapper's elements may be written alike, the latches also apart where they are not read. -/
theorem sameLive_mapper_elements {m : MState} {y y' : Sample} {i i' : PixIndex} (hy : m = .gap ∨ m = .reqX → y = y')
    (hi : m = .resp → i = i') :
    { c with mState := m, yLat := y, idxLat := i }.SameLive { d with mState := m, yLat := y', idxLat := i' } := by
  obtain ⟨h1, h2, h3, h4, h5, h6, h7, h8, -, h10, h11, h12, h13, h14, h15, h16, -, -⟩ := hwrite
  exact ⟨h1, h2, h3, h4, h5, h6, h7, h8, rfl, h10, h11, h12, h13, h14, h15, h16, hy, hi⟩

/-- Y_LAT is written in M_REQ_Y and read in M_REQ_X; no command step touches a busy mapper's state. -/
theorem sameLive_mapperStep (hbusy : s.mState ≠ .idle → c.mState = s.mState) :
    (mapperStep s c).SameLive (mapperStep t d) := by
  have hin := sameLive_inputs h
  have hwrite' := hwrite
  obtain ⟨-, -, -, -, -, -, -, -, hmState, -, -, -, -, -, -, -, hlatch, -⟩ := h
  obtain ⟨-, -, -, -, -, -, -, -, -, -, -, -, -, -, -, -, hlatch', -⟩ := hwrite
  simp only [mapperStep, ← hmState, ← hin]
  cases hm : s.mState with
  | idle => exact hwrite'
  | reqY =>
    simp only
    split
    · exact sameLive_mapper_elements hwrite' (fun _ => rfl) nofun
    · exact hwrite'
  | gap =>
    have hc : c.mState = .gap := hm ▸ hbusy (by simp [hm])
    exact sameLive_mapper_elements hwrite' (fun _ => hlatch' (.inl hc)) nofun
  | reqX =>
    simp only
    split
    · exact sameLive_mapper_elements hwrite' nofun fun _ => by rw [hlatch (.inr hm)]
    · exact hwrite'
  | resp => exact sameLive_mapper_elements hwrite' nofun nofun

end

/-- Settles O60: the observed outputs read live elements only, and the relation is carried through the command step and the
agents in turn; the invariants say that an active walker means READY, where FB is live. -/
theorem unspecifiedElementsAreUnobservable : Obligations.UnspecifiedElementsAreUnobservable := by
  intro s t s' hinv h hstep
  refine ⟨sameLive_observed h, ?_⟩
  have hin := sameLive_inputs h
  rcases step_cases hstep with ⟨hr, rfl⟩ | ⟨hr, c, u, hc, hu, rfl⟩
  · refine ⟨_, step_of_reset (hin ▸ hr), ?_⟩
    simp_all [State.SameLive, applyReset]
  · obtain ⟨d, hd, hcommand⟩ := commandStep_sameLive h hc
    have hencoder := sameLive_encoderStep h hcommand (commandStep_sameAgents hc).eRun
    obtain ⟨-, hwalk, -⟩ := hinv
    obtain ⟨v, hv, hwalker⟩ := sameLive_walkerStep h hencoder (fun ha => (hwalk ha).1) hu
    have hmapper := sameLive_mapperStep h hwalker (mState_of_busy hc hu)
    have hdout := sameLive_dout h
    refine ⟨_, step_of_no_reset (hin ▸ hr) hd hv, ?_⟩
    simp_all [State.SameLive]

end Sys2Proof.Machine
end

section
/-! Frames as lists (R66, R67, R162, R172): the bits and the words of a frame by position, and the bits of its words. -/

namespace Sys2Proof.Machine

/-! Lists made of pieces of one length. -/

theorem length_flatMap_of_length_eq {α β : Type} {f : α → List β} {m : Nat} (hf : ∀ a, (f a).length = m) (l : List α) :
    (l.flatMap f).length = l.length * m := by
  simp [List.length_flatMap, hf]

/-- Entry `j` of piece `k` stands `m * k + j` from the beginning. -/
theorem getElem?_flatMap_of_length_eq {α β : Type} {f : α → List β} {m : Nat} (hf : ∀ a, (f a).length = m) (l : List α)
    (k : Nat) {j : Nat} (hj : j < m) : (l.flatMap f)[m * k + j]? = l[k]?.bind fun a => (f a)[j]? := by
  induction l generalizing k with
  | nil => simp
  | cons a rest ih =>
    cases k with
    | zero =>
      rw [List.flatMap_cons, List.getElem?_append_left (by rw [hf]; omega)]
      simp
    | succ k =>
      rw [List.flatMap_cons, List.getElem?_append_right (by rw [hf]; nlinarith), hf, List.getElem?_cons_succ, ← ih k]
      congr 1
      rw [Nat.mul_succ]
      omega

/-! Bits. -/

theorem length_byteBits (v : Byte) : (byteBits v).length = 8 := by simp [byteBits]

theorem getElem?_byteBits (v : Byte) {j : Nat} (hj : j < 8) : (byteBits v)[j]? = some (v.getLsbD (7 - j)) := by
  interval_cases j <;> rfl

theorem length_pixelBits (px : Pixel) : (pixelBits px).length = 24 := rfl

theorem getElem?_pixelBits (px : Pixel) {j : Nat} (hj : j < 24) :
    (pixelBits px)[j]? = some ((px.g ++ px.r ++ px.b).getLsbD (23 - j)) := by
  simp only [pixelBits, List.getElem?_append, List.length_append, length_byteBits, BitVec.getLsbD_append]
  rcases Nat.lt_or_ge j 8 with h8 | h8
  · rw [if_pos (by omega), if_pos h8, getElem?_byteBits _ h8, if_neg (by omega), if_neg (by omega)]
    congr 2; omega
  rcases Nat.lt_or_ge j 16 with h16 | h16
  · rw [if_pos h16, if_neg (by omega), getElem?_byteBits _ (by omega), if_neg (by omega), if_pos (by omega)]
    congr 2; omega
  · rw [if_neg (by omega), getElem?_byteBits _ (by omega), if_pos (by omega)]
    congr 2; omega

theorem length_frameBits (fb : Vector Pixel 25) : (frameBits fb).length = 600 := by
  rw [frameBits, length_flatMap_of_length_eq length_pixelBits, Vector.length_toList]

theorem getElem?_toList {fb : Vector Pixel 25} {p : Nat} (hp : p < 25) : fb.toList[p]? = some fb[p] := by
  simp [hp]

/-- Settles O33: bit `n` is bit `n mod 24` of the piece of pixel `n div 24`. -/
theorem frameBitPositions : Obligations.FrameBitPositions := by
  refine fun fb => ⟨length_frameBits fb, fun n h => ?_⟩
  have hj : n % 24 < 24 := Nat.mod_lt n (by decide)
  calc (frameBits fb)[n]?
      = (frameBits fb)[24 * (n / 24) + n % 24]? := by rw [Nat.div_add_mod]
    _ = (pixelBits fb[n / 24])[n % 24]? := by
        rw [frameBits, getElem?_flatMap_of_length_eq length_pixelBits _ _ hj, getElem?_toList (by omega), Option.bind_some]
    _ = _ := getElem?_pixelBits _ hj

/-! Words. -/

theorem length_pixelWords (px : Pixel) : (pixelWords px).length = 3 := rfl

theorem length_frameWords (fb : Vector Pixel 25) : (frameWords fb).length = 75 := by
  rw [frameWords, length_flatMap_of_length_eq length_pixelWords, Vector.length_toList]

theorem getElem?_frameWords (fb : Vector Pixel 25) {p c : Nat} (hp : p < 25) (hc : c < 3) :
    (frameWords fb)[3 * p + c]? = (pixelWords fb[p])[c]? := by
  rw [frameWords, getElem?_flatMap_of_length_eq length_pixelWords _ _ hc, getElem?_toList hp, Option.bind_some]

theorem wordByte_txWord (v : Byte) : wordByte (txWord v) = v := by
  rw [txWord_eq_append]; exact BitVec.extractLsb'_append_eq_left

theorem wordBits_txWord (v : Byte) : wordBits (txWord v) = byteBits v := by
  rw [wordBits, wordByte_txWord]

/-- The encoder sends of a pixel's words the pixel's bits. -/
theorem flatMap_wordBits_pixelWords (px : Pixel) : (pixelWords px).flatMap wordBits = pixelBits px := by
  simp [pixelWords, wordBits_txWord, pixelBits]

theorem flatMap_wordBits_frameWords (fb : Vector Pixel 25) : (frameWords fb).flatMap wordBits = frameBits fb := by
  simp only [frameWords, frameBits, List.flatMap_assoc, flatMap_wordBits_pixelWords]

/-- Settles O34: a frame is 25 pieces of three words, and each word is a colour value over 24 zeros. -/
theorem frameWordsCarryTheFrame : Obligations.FrameWordsCarryTheFrame := by
  refine fun fb => ⟨length_frameWords fb, fun p hp => ?_, fun w hw => ?_, flatMap_wordBits_frameWords fb⟩
  · simp only [← txWord_eq_append]
    exact ⟨getElem?_frameWords fb hp (c := 0) (by decide), getElem?_frameWords fb hp (by decide),
      getElem?_frameWords fb hp (by decide)⟩
  · obtain ⟨px, -, hw⟩ := List.mem_flatMap.mp hw
    simp only [pixelWords, List.mem_cons, List.not_mem_nil, or_false] at hw
    rcases hw with rfl | rfl | rfl <;> exact txWord_low _

end Sys2Proof.Machine
end

section
/-! The walker and the queue in a tick (R161, R163, R179, R180), and the bits the block owes the wire (R166). -/

namespace Sys2Proof.Machine

/-! The walker's position in the frame. -/

/-- The walker sends the word at its position of the frame (R162). -/
theorem getElem?_frameWords_of_walkerByte {fb : Vector Pixel 25} {p : BitVec 5} {c : BitVec 2} {v : Byte}
    (h : walkerByte fb p c = some v) : (frameWords fb)[3 * p.toNat + c.toNat]? = some (txWord v) := by
  have hp : p.toNat ≤ 24 := by
    by_contra hgt
    rw [walkerByte, readPixel_eq_none.mpr (by omega)] at h
    cases h
  rw [walkerByte, readPixel_of_le hp] at h
  simp only [channelOf] at h
  have hp' : p.toNat < 25 := Nat.lt_succ_of_le hp
  split_ifs at h with h0 h1 h2 <;> cases h
  · subst h0; exact getElem?_frameWords fb hp' (c := 0) (by decide)
  · subst h1; exact getElem?_frameWords fb hp' (c := 1) (by decide)
  · subst h2; exact getElem?_frameWords fb hp' (c := 2) (by decide)

/-- The words to push begin with the walker's. -/
theorem pendingWords_eq_cons {s : State} (hactive : s.wActive = true) {v : Byte}
    (hv : walkerByte s.fb s.wPix s.wCh = some v) :
    s.pendingWords = txWord v :: (frameWords s.fb).drop (s.walkerPos + 1) := by
  have hget : (frameWords s.fb)[s.walkerPos]? = some (txWord v) := getElem?_frameWords_of_walkerByte hv
  obtain ⟨hlt, hget⟩ := List.getElem?_eq_some_iff.mp hget
  rw [State.pendingWords, if_pos hactive, List.drop_eq_getElem_cons hlt, hget]

/-- Moving on takes one word off those to push, and ends the TRANSMIT with the last (R164). -/
theorem walkerAdvance_pendingWords {s t : State} (hpix : s.wPix.toNat ≤ 24) (hch : s.wCh.toNat ≤ 2) (hfb : t.fb = s.fb)
    (hactive : t.wActive = true) (htpix : t.wPix = s.wPix) :
    (walkerAdvance s t).pendingWords = (frameWords s.fb).drop (s.walkerPos + 1) ∧
    ((walkerAdvance s t).wActive = true ↔ s.walkerPos < 74) := by
  rcases walkerAdvance_cases s t with ⟨hlt, heq⟩ | ⟨hge, hlt, heq⟩ | ⟨hge, hge', heq⟩ <;> rw [heq]
  · have hpos : 3 * t.wPix.toNat + (s.wCh + 1).toNat = s.walkerPos + 1 := by rw [htpix, State.walkerPos]; bv_omega
    refine ⟨?_, iff_of_true hactive (by rw [State.walkerPos]; omega)⟩
    rw [← hpos, ← hfb]
    exact if_pos hactive
  · have hpos : 3 * (s.wPix + 1).toNat + 0 = s.walkerPos + 1 := by rw [State.walkerPos]; bv_omega
    refine ⟨?_, iff_of_true hactive (by rw [State.walkerPos]; omega)⟩
    rw [← hpos, ← hfb]
    exact if_pos hactive
  · refine ⟨?_, iff_of_false Bool.false_ne_true (by rw [State.walkerPos]; omega)⟩
    rw [List.drop_eq_nil_of_le (by rw [length_frameWords, State.walkerPos]; omega)]
    rfl

/-! A tick with the walker active: no command, and an idle mapper. -/

section
variable {s : State} (hr : s.inputs.rst = false) (hactive : s.wActive = true) (hidle : s.mState = .idle)
include hr hactive hidle

theorem step_of_walker_pushes {v : Byte} (hroom : s.fifo.length < s.params.fifoDepth)
    (hv : walkerByte s.fb s.wPix s.wCh = some v) :
    step s = .next (advance s (lowRunStep s (walkerAdvance s (fifoPush (encoderStep s s) (txWord v))))) := by
  have hpush : s.walkerPushes = true := walkerPushes_iff.mpr ⟨hactive, hroom⟩
  rw [step_of_no_reset hr (commandStep_of_walker hactive) (by simp only [walkerStep, hpush, hv, if_true]; rfl),
    mapperStep_of_idle _ hidle]

theorem step_of_walker_waits (hfull : s.params.fifoDepth ≤ s.fifo.length) :
    step s = .next (advance s (lowRunStep s (encoderStep s s))) := by
  have hpush : s.walkerPushes = false :=
    Bool.eq_false_iff.mpr fun h => absurd (walkerPushes_iff.mp h).2 (Nat.not_lt.mpr hfull)
  rw [step_of_no_reset hr (commandStep_of_walker hactive) (by simp only [walkerStep, hpush]; rfl),
    mapperStep_of_idle _ hidle]

end

/-- Settles O27: the word pushed is the head of those to push (`pendingWords_eq_cons`), and moving on leaves the rest. -/
theorem walkerPushesTheNextWord : Obligations.WalkerPushesTheNextWord := by
  intro s ⟨_, hwalk, _⟩ hr hactive hroom
  obtain ⟨-, hidle, hpix, hch⟩ := hwalk hactive
  obtain ⟨v, hv⟩ := walkerByte_of_le (fb := s.fb) hpix hch
  obtain ⟨hrest, hmore⟩ := walkerAdvance_pendingWords (t := fifoPush (encoderStep s s) (txWord v)) hpix hch (by simp)
    (by simpa using hactive) (by simp)
  refine ⟨_, txWord v, _, step_of_walker_pushes hr hactive hidle hroom hv, pendingWords_eq_cons hactive hv, ?_, hrest,
    ?_, ?_⟩
  · simp [encoderStep_fifo]
  · refine hmore.trans ?_
    rw [ne_eq, List.drop_eq_nil_iff, length_frameWords]
    omega
  · simp

/-- Settles O28: the tick is the encoder's alone, which leaves the walker and FB as they are. -/
theorem walkerWaitsWhileTheFifoIsFull : Obligations.WalkerWaitsWhileTheFifoIsFull := by
  intro s ⟨_, hwalk, _⟩ hr hactive hfull
  obtain ⟨-, hidle, -, -⟩ := hwalk hactive
  refine ⟨_, step_of_walker_waits hr hactive hidle hfull, ?_⟩
  simp [State.cmdReady, encoderStep_fifo, hactive]

/-- Settles O30: the queue holds a word to pop and has room beside it, so its depth is at least 2. -/
theorem popAndPushShareATick : Obligations.PopAndPushShareATick := by
  intro s ⟨_, hwalk, _⟩ hr hpop hpush
  obtain ⟨hactive, hroom⟩ := walkerPushes_iff.mp hpush
  obtain ⟨-, hidle, hpix, hch⟩ := hwalk hactive
  obtain ⟨v, hv⟩ := walkerByte_of_le (fb := s.fb) hpix hch
  have hword : 0 < s.fifo.length := List.length_pos_iff.mpr (encoderPops_iff.mp hpop).1
  have hfifo : (encoderStep s s).fifo = s.fifo.tail := by rw [encoderStep_fifo, if_pos hpop]
  refine ⟨by omega, _, v, step_of_walker_pushes hr hactive hidle hroom hv, hv, ?_, ?_⟩
  · simp [hfifo]
  · simp [hfifo]
    omega

/-! Owed bits: the encoder's share. -/

theorem byteBits_eq_cons_shiftLeft (v : Byte) :
    byteBits v = v.getLsbD 7 :: (byteBits (v <<< 1)).take 7 := by
  simp [byteBits]

/-- The bits left of a byte are its current bit and, shifted, one bit fewer. -/
theorem take_byteBits_succ (v : Byte) {n : Nat} (hn : n ≤ 7) :
    (byteBits v).take (n + 1) = v.getLsbD 7 :: (byteBits (v <<< 1)).take n := by
  rw [byteBits_eq_cons_shiftLeft, List.take_succ_cons, List.take_take, Nat.min_eq_left hn]

theorem encoderBits_of_running {s : State} (h : s.eRun = true) : s.encoderBits = (byteBits s.eSr).take s.eLeft.toNat :=
  if_pos h

theorem encoderBits_of_idle {s : State} (h : s.eRun = false) : s.encoderBits = [] := by
  simp [State.encoderBits, h]

theorem completedBits_of_idle {s : State} (h : s.eRun = false) : s.completedBits = [] := by
  simp [State.completedBits, h]

theorem completedBits_inside_cell {s : State} (h : s.eCnt.toNat < 9) : s.completedBits = [] :=
  if_neg fun hend => Nat.ne_of_lt h hend.2

theorem completedBits_end_of_cell {s : State} (hrun : s.eRun = true) (h : s.eCnt.toNat = 9) :
    s.completedBits = [s.eSr.getLsbD 7] :=
  if_pos ⟨hrun, h⟩

/-- Right after a load the encoder owes the word's bits. -/
theorem encoderBits_of_load {t : State} {w : Word} (hrun : t.eRun = true) (hsr : t.eSr = w.extractLsb' 24 8)
    (hleft : t.eLeft = 8) : t.encoderBits = wordBits w := by
  rw [encoderBits_of_running hrun, hsr, hleft]
  exact List.take_of_length_le (by simp [length_byteBits])

/-- In a tick without reset encoder and queue together lose the bit that is completed, and a popped word's bits pass from the
queue to the encoder. -/
theorem step_encoderBits {s t : State} (hinv : s.Inv) (hr : s.inputs.rst = false) (h : step s = .next t) :
    s.encoderBits ++ s.fifo.flatMap wordBits = s.completedBits ++ t.encoderBits ++
      (if s.encoderPops then s.fifo.tail else s.fifo).flatMap wordBits := by
  obtain ⟨-, -, -, -, -, hencoder, -⟩ := hinv
  cases hrun : s.eRun with
  | false =>
    rw [encoderBits_of_idle hrun, completedBits_of_idle hrun]
    cases hfifo : s.fifo with
    | nil =>
      obtain ⟨hrun', hpop⟩ := step_encoder_idle hr h hrun hfifo
      rw [encoderBits_of_idle hrun', hpop]
      rfl
    | cons w rest =>
      obtain ⟨hrun', hsr, hleft, -, hpop⟩ := step_encoder_load hr h hfifo fun hx => absurd hx (by simp [hrun])
      rw [encoderBits_of_load hrun' hsr hleft, hpop]
      simp
  | true =>
    obtain ⟨hone, height, hnine⟩ := hencoder hrun
    rw [encoderBits_of_running hrun]
    rcases Nat.lt_or_ge s.eCnt.toNat 9 with hcnt | hcnt
    · obtain ⟨hrun', hsr, hleft, -, hpop⟩ := step_encoder_inside_cell hr h hrun hcnt
      rw [encoderBits_of_running hrun', hsr, hleft, hpop, completedBits_inside_cell hcnt]
      rfl
    rw [completedBits_end_of_cell hrun (Nat.le_antisymm hnine hcnt)]
    rcases Nat.lt_or_ge 1 s.eLeft.toNat with hleft | hleft
    · obtain ⟨hrun', hsr, hleft', -, hpop⟩ := step_encoder_end_of_cell hr h hrun hcnt hleft
      have htake : (byteBits s.eSr).take s.eLeft.toNat =
          s.eSr.getLsbD 7 :: (byteBits (s.eSr <<< 1)).take (s.eLeft.toNat - 1) := by
        rw [← take_byteBits_succ _ (by omega), Nat.sub_add_cancel hone]
      rw [encoderBits_of_running hrun', hsr, hleft', hpop, htake]
      simp
    have hlast : (byteBits s.eSr).take s.eLeft.toNat = [s.eSr.getLsbD 7] := by
      rw [show s.eLeft.toNat = 0 + 1 by omega, take_byteBits_succ _ (by omega), List.take_zero]
    rw [hlast]
    cases hfifo : s.fifo with
    | nil =>
      obtain ⟨hrun', hpop⟩ := step_encoder_end_of_last_word hr h hrun hcnt hleft hfifo
      rw [encoderBits_of_idle hrun', hpop]
      simp
    | cons w rest =>
      obtain ⟨hrun', hsr, hleft', -, hpop⟩ := step_encoder_load hr h hfifo fun _ => ⟨hcnt, hleft⟩
      rw [encoderBits_of_load hrun' hsr hleft', hpop]
      simp

/-! Owed bits: the walker's share. -/

theorem not_startsFrame_of_walker {s : State} (hactive : s.wActive = true) : ¬ s.StartsFrame := fun hstart => by
  obtain ⟨-, hrest, -⟩ := idle_of_accepts hstart.1.1
  exact Bool.false_ne_true (hrest.symm.trans hactive)

/-- Of the command steps only a TRANSMIT in READY starts the walker. -/
theorem commandStep_walker {s c : State} (h : commandStep s = .next c) :
    (¬ s.StartsFrame ∧ c.wActive = s.wActive) ∨ (s.StartsFrame ∧ c = startWalker s) := by
  by_cases hstart : s.StartsFrame
  · refine .inr ⟨hstart, ?_⟩
    rw [commandStep_accepted hstart.1, exec_transmit_of_ready hstart.2] at h
    exact (Host.Outcome.next.inj h).symm
  · refine .inl ⟨hstart, ?_⟩
    rcases commandStep_writes h with rfl | ⟨-, rfl | rfl | rfl | ⟨_, -, -, rfl⟩ | ⟨_, _, _, _, -, -, -, rfl⟩ |
      ⟨-, -, rfl⟩ | ⟨htransmit, hready, -⟩ | ⟨-, rfl⟩ | ⟨-, -, rfl⟩⟩
    on_goal 8 => exact absurd ⟨htransmit, hready⟩ hstart
    all_goals simp

/-- The words that pass from the walker to the queue in a tick without reset: none are lost, and a TRANSMIT brings those of
the framebuffer as it is. -/
theorem step_pendingWords {s t : State} (hinv : s.Inv) (hr : s.inputs.rst = false) (h : step s = .next t) :
    ∃ pushed, t.fifo = (if s.encoderPops then s.fifo.tail else s.fifo) ++ pushed ∧
      s.pendingWords ++ (if s.StartsFrame then frameWords s.fb else []) = pushed ++ t.pendingWords := by
  cases hactive : s.wActive with
  | true =>
    rw [if_neg (not_startsFrame_of_walker hactive), List.append_nil]
    rcases Nat.lt_or_ge s.fifo.length s.params.fifoDepth with hroom | hfull
    · obtain ⟨t', w, rest, h', hpend, hfifo, hpend', -⟩ := walkerPushesTheNextWord s hinv hr hactive hroom
      cases h.symm.trans h'
      exact ⟨[w], hfifo, by rw [hpend, hpend']; rfl⟩
    · obtain ⟨t', h', hactive', hpix, hch, hfb, -, hfifo⟩ := walkerWaitsWhileTheFifoIsFull s hinv hr hactive hfull
      cases h.symm.trans h'
      exact ⟨[], by rw [hfifo, List.append_nil],
        by simp only [State.pendingWords, State.walkerPos, hactive, hactive', hpix, hch, hfb, List.nil_append]⟩
  | false =>
    obtain ⟨c, v, hc, hv, rfl, hfb, -⟩ := step_commandElements hr h
    rw [walkerStep_inactive _ hactive] at hv
    cases hv
    refine ⟨[], by simp [encoderStep_fifo, (commandStep_sameAgents hc).fifo], ?_⟩
    rcases commandStep_walker hc with ⟨hnot, hc'⟩ | ⟨hstart, rfl⟩
    · rw [if_neg hnot]
      simp [State.pendingWords, hactive, hc']
    · rw [if_pos hstart]
      simp [State.pendingWords, State.walkerPos, hactive]

/-- Settles O32: the completed bit leaves the encoder, popped and pushed words change their place only. -/
theorem owedBitsAreConserved : Obligations.OwedBitsAreConserved := by
  intro s t hinv hr h
  obtain ⟨pushed, hfifo, hpend⟩ := step_pendingWords hinv hr h
  have hkey : s.owedBits ++ (if s.StartsFrame then frameBits s.fb else []) = s.completedBits ++ t.owedBits := by
    calc s.owedBits ++ (if s.StartsFrame then frameBits s.fb else [])
        = (s.encoderBits ++ s.fifo.flatMap wordBits) ++
            (s.pendingWords ++ if s.StartsFrame then frameWords s.fb else []).flatMap wordBits := by
          rw [List.flatMap_append, apply_ite (List.flatMap wordBits), flatMap_wordBits_frameWords]
          simp [State.owedBits]
      _ = s.completedBits ++ t.owedBits := by
          rw [step_encoderBits hinv hr h, hpend, State.owedBits, hfifo]
          simp
  exact ⟨fun hnot => by simpa [if_neg hnot] using hkey, fun hstart => by simpa [if_pos hstart] using hkey⟩

end Sys2Proof.Machine
end

section
/-! Reading the wire (R173, R176) and the LED chain's contract (R177): the cells of a bit sequence are read back as that
sequence, and the low line after them as one frame boundary. -/

namespace Sys2Proof.Machine

/-! Admitted pulse lengths (R8, R169). -/

theorem wellFormed_iff {p : Config.Params} : p.wellFormed = true ↔
    1 ≤ p.t0hTicks ∧ p.t0hTicks < p.t1hTicks ∧ p.t1hTicks ≤ 9 ∧ 1 ≤ p.fifoDepth ∧ 1 ≤ p.slots := by
  simp only [Config.Params.wellFormed, Bool.and_eq_true, decide_eq_true_eq, and_assoc]
  exact Iff.rfl

theorem pulseTicks_bounds {p : Config.Params} (hp : p.wellFormed = true) (b : Bool) :
    1 ≤ pulseTicks p b ∧ pulseTicks p b ≤ 9 := by
  obtain ⟨h0, h01, h1, -⟩ := wellFormed_iff.mp hp
  cases b <;> simp [pulseTicks] <;> omega

/-- The two pulse lengths differ, so that each is read as its own bit. -/
theorem symbolOf_pulseTicks {p : Config.Params} (hp : p.wellFormed = true) (b : Bool) :
    symbolOf p (pulseTicks p b) = some b := by
  obtain ⟨-, h01, -⟩ := wellFormed_iff.mp hp
  cases b
  · simp [symbolOf, pulseTicks]
  · simp [symbolOf, pulseTicks, Nat.ne_of_gt h01]

/-! Runs of equal levels. -/

theorem readWire_high (p : Config.Params) (high low n : Nat) (rest : List Bool) :
    readWire p high low (List.replicate (n + 1) true ++ rest) = readWire p (high + (n + 1)) 0 rest := by
  induction n generalizing high low with
  | zero => rfl
  | succ n ih =>
    rw [List.replicate_succ, List.cons_append, readWire, ih, Nat.add_assoc, Nat.add_comm 1]

/-- A low run is silent until it reaches RESET_TICKS. -/
theorem readWire_low {p : Config.Params} {low n : Nat} (h : low + n < Config.resetTicks) (rest : List Bool) :
    readWire p 0 low (List.replicate n false ++ rest) = readWire p 0 (low + n) rest := by
  induction n generalizing low with
  | zero => rfl
  | succ n ih =>
    have hquiet : lowTickEvents p 0 low = [] := by simp [lowTickEvents]; omega
    rw [List.replicate_succ, List.cons_append, readWire, hquiet, List.nil_append, ih (by omega)]
    congr 1; omega

/-- A low run that does not end by itself shows one boundary, in the tick in which it reaches RESET_TICKS, and none after. -/
theorem readWire_low_to_end (p : Config.Params) (low n : Nat) :
    readWire p 0 low (List.replicate n false) =
      if low < Config.resetTicks ∧ Config.resetTicks ≤ low + n then [.boundary] else [] := by
  induction n generalizing low with
  | zero => rw [if_neg (by omega)]; rfl
  | succ n ih =>
    rw [List.replicate_succ, readWire, ih, lowTickEvents]
    by_cases hnow : low + 1 = Config.resetTicks
    · rw [if_neg (show ¬ (low + 1 < _ ∧ _) by omega), if_pos (show low < _ ∧ _ by omega)]
      simp [hnow]
    · simp only [hnow, if_true, if_false, List.append_nil, List.nil_append]
      congr 1
      exact propext (by omega)

/-! Cells. -/

/-- Reading one cell: its bit, whatever the low run before it, and then the low rest of the cell. -/
theorem readWire_cell {p : Config.Params} (hp : p.wellFormed = true) (b : Bool) (low : Nat) (rest : List Bool) :
    readWire p 0 low (cellLevels p b ++ rest) = .pulse (some b) :: readWire p 0 (10 - pulseTicks p b) rest := by
  obtain ⟨hone, hnine⟩ := pulseTicks_bounds hp b
  have hlast : 10 - pulseTicks p b = (10 - pulseTicks p b - 1) + 1 := by omega
  have hevents : lowTickEvents p (pulseTicks p b) 0 = [.pulse (some b)] := by
    simp [lowTickEvents, Config.resetTicks, symbolOf_pulseTicks hp, Nat.ne_of_gt hone]
  calc readWire p 0 low (cellLevels p b ++ rest)
      = readWire p (pulseTicks p b) 0 (List.replicate (10 - pulseTicks p b) false ++ rest) := by
        obtain ⟨n, hn⟩ := Nat.exists_eq_add_one.mpr hone
        rw [cellLevels, List.append_assoc, hn, readWire_high, Nat.zero_add]
        rfl
    _ = .pulse (some b) :: readWire p 0 1 (List.replicate (10 - pulseTicks p b - 1) false ++ rest) := by
        rw [hlast, List.replicate_succ, List.cons_append, readWire, hevents]
        rfl
    _ = _ := by
        rw [readWire_low (by simp [Config.resetTicks]; omega), Nat.add_comm 1, ← hlast]

/-- The low run after the cells of a bit sequence. -/
def lowAfterCells (p : Config.Params) (low : Nat) (bits : List Bool) : Nat :=
  bits.foldl (fun _ b => 10 - pulseTicks p b) low

/-- After a cell the low run is the low rest of that cell. -/
theorem lowAfterCells_le (p : Config.Params) {low : Nat} {bits : List Bool} (h : low ≤ 10 ∨ bits ≠ []) :
    lowAfterCells p low bits ≤ 10 := by
  induction bits generalizing low with
  | nil => exact h.resolve_right (absurd rfl)
  | cons b bits ih => exact ih (.inl (Nat.sub_le 10 _))

theorem readWire_cells {p : Config.Params} (hp : p.wellFormed = true) (bits : List Bool) (low : Nat) (rest : List Bool) :
    readWire p 0 low (cells p bits ++ rest) =
      bits.map (fun b => .pulse (some b)) ++ readWire p 0 (lowAfterCells p low bits) rest := by
  induction bits generalizing low with
  | nil => rfl
  | cons b bits ih =>
    rw [cells, List.flatMap_cons, List.append_assoc, readWire_cell hp, ← cells, ih]
    rfl

/-- Settles O41: each cell is read as its bit (`readWire_cell`), one after the other. -/
theorem symbolsReadBack : Obligations.SymbolsReadBack := by
  intro p bits low hp
  simpa [readWire] using readWire_cells hp bits low []

/-! The LED chain. -/

theorem ledsShow_pulses (burst : List (Option Bool)) (shown : Option (List Pixel)) (bits : List Bool)
    (rest : List WireEvent) : ledsShow burst shown (bits.map (fun b => .pulse (some b)) ++ rest) =
      ledsShow (burst ++ bits.map some) shown rest := by
  induction bits generalizing burst with
  | nil => simp
  | cons b bits ih => simp [ledsShow, ih]

theorem burstSymbols_map_some (bits : List Bool) : burstSymbols (bits.map some) = some bits := by
  induction bits with
  | nil => rfl
  | cons b bits ih => simp [burstSymbols, ih]

theorem bitsToByte_byteBits (v : Byte) : bitsToByte (byteBits v) = v := by
  revert v; decide

theorem bitsToPixel_pixelBits (px : Pixel) : bitsToPixel (pixelBits px) = px := by
  simp [bitsToPixel, pixelBits, List.drop_append, length_byteBits, List.take_of_length_le, List.drop_of_length_le,
    bitsToByte_byteBits]

theorem burstPixels_flatMap_pixelBits (l : List Pixel) : burstPixels l.length (l.flatMap pixelBits) = l := by
  induction l with
  | nil => rfl
  | cons px l ih =>
    rw [List.length_cons, List.flatMap_cons, burstPixels, List.take_left' (length_pixelBits px),
      List.drop_left' (length_pixelBits px), ih, bitsToPixel_pixelBits]

theorem ledColours_frameBits (fb : Vector Pixel 25) : ledColours ((frameBits fb).map some) = some fb.toList := by
  have hpixels : burstPixels Config.npix (frameBits fb) = fb.toList := by
    have h := burstPixels_flatMap_pixelBits fb.toList
    rwa [Vector.length_toList] at h
  rw [ledColours, burstSymbols_map_some]
  simp [length_frameBits, hpixels]

/-- Settles O42: the reading is 600 pulses and one boundary, which closes the burst of the frame's bits. -/
theorem ledsShowTheFrame : Obligations.LedsShowTheFrame := by
  intro p fb low n shown hp hn
  have hbits : frameBits fb ≠ [] := by
    rw [← List.length_pos_iff, length_frameBits]; decide
  have hlow : lowAfterCells p low (frameBits fb) ≤ 10 := lowAfterCells_le p (.inr hbits)
  have hreset : Config.resetTicks = 2240 := rfl
  have hread : readWire p 0 low (cells p (frameBits fb) ++ List.replicate n false) =
      (frameBits fb).map (fun b => .pulse (some b)) ++ [.boundary] := by
    rw [readWire_cells hp, readWire_low_to_end, if_pos (by omega)]
  rw [hread, ledsShow_pulses, List.nil_append, ledsShow, ledColours_frameBits, if_neg (by simpa using hbits), ledsShow,
    if_pos rfl]

end Sys2Proof.Machine
end

section
/-! The mapper: the LED that MapIndex names (R72, R217), the sequencer's rule (R222) and a whole READ_INDEX (R211, R223). -/

namespace Sys2Proof.Machine

/-! MapIndex and the serpentine wiring. -/

theorem pixelRow_pixelCol_of_toNat {i : PixIndex} {row col : Nat} (hcol : col ≤ 4) (h : i.toNat = row * 5 + col) :
    pixelRow i = row ∧ pixelCol i = col := by
  rw [pixelRow, pixelCol, h]
  omega

theorem toNat_eq_row_col (i : PixIndex) : i.toNat = pixelRow i * 5 + pixelCol i := (Nat.div_add_mod' i.toNat 5).symm

theorem pixelCol_le (i : PixIndex) : pixelCol i ≤ 4 := Nat.le_of_lt_succ (Nat.mod_lt _ (by decide))

/-- Settles O48: MapIndex inverts the column of an odd row and the wiring inverts it back (`serpentine_serpentine`). -/
theorem mapIndexLightsThePhysicalColumn : Obligations.MapIndexLightsThePhysicalColumn := by
  refine ⟨fun x y => ?_, fun i hi => ?_, fun i j _ _ hrow hcol => ?_⟩
  · have hcol : clampFour (scaleToFive (Config.adcMax - y.toNat)) ≤ 4 := by rw [clampFour_eq_min]; omega
    obtain ⟨hr, hc⟩ := pixelRow_pixelCol_of_toNat (serpentine_le _ hcol) (toNat_mapIndex x y)
    exact ⟨hr, by rw [physicalColumn, hr, hc, serpentine_serpentine _ hcol]⟩
  · exact ⟨by rw [pixelRow]; omega, serpentine_le _ (pixelCol_le i), toNat_eq_row_col i⟩
  · have hlogical : pixelCol i = pixelCol j := by
      rw [← serpentine_serpentine (pixelRow i) (pixelCol_le i), ← serpentine_serpentine (pixelRow j) (pixelCol_le j),
        ← physicalColumn, hcol, hrow, physicalColumn]
    exact BitVec.eq_of_toNat_eq (by rw [toNat_eq_row_col, hrow, hlogical, ← toNat_eq_row_col])

/-! The sequencer in a tick without reset. -/

/-- A busy mapper: no command step and no other agent writes its elements, so that its step finds them as they were. -/
theorem step_of_busy_mapper {s t : State} (hr : s.inputs.rst = false) (h : step s = .next t) (hne : s.mState ≠ .idle) :
    ∃ v, t = advance s (lowRunStep s (mapperStep s v)) ∧ v.mState = s.mState ∧ v.yLat = s.yLat ∧ v.idxLat = s.idxLat := by
  obtain ⟨c, v, hc, hv, rfl, -⟩ := step_commandElements hr h
  obtain rfl : s = c := by simpa [commandStep_of_mapper hne] using hc
  obtain ⟨-, -, -, -, -, -, -, -, -, hmState, hyLat, hidxLat, -⟩ := walkerStep_encoderStep_frame hv
  exact ⟨v, rfl, hmState, hyLat, hidxLat⟩

/-- An idle mapper starts with an accepted READ_INDEX in a configured block, and only so (R211). -/
theorem step_of_idle_mapper {s t : State} (hr : s.inputs.rst = false) (h : step s = .next t) (hidle : s.mState = .idle) :
    t.mState = if s.Accepts .readIndex ∧ s.mapReady = true then .reqY else .idle := by
  obtain ⟨c, v, hc, hv, rfl, -⟩ := step_commandElements hr h
  obtain ⟨-, -, -, -, -, -, -, -, -, hmState, -⟩ := walkerStep_encoderStep_frame hv
  have ht : (advance s (lowRunStep s (mapperStep s v))).mState = c.mState := by
    rw [mapperStep_of_idle v hidle]; exact hmState
  rw [ht]
  split
  · rename_i hstart
    rw [commandStep_accepted hstart.1, exec_readIndex_of_mapReady hstart.2] at hc
    cases hc
    rfl
  · rename_i hnot
    rcases commandStep_mState hc with hsame | ⟨haccepts, hready, -⟩
    · exact hsame.trans hidle
    · exact absurd ⟨haccepts, hready⟩ hnot

/-- Settles O49: the ports by their definitions, the idle mapper by `step_of_idle_mapper`, and the others by their branch of
`mapperStep`. -/
theorem mapperSequencerRule : Obligations.MapperSequencerRule := by
  refine ⟨fun s => ?_, fun s t hr h => ⟨step_of_idle_mapper hr h, ?_⟩⟩
  · cases hm : s.mState <;> simp [State.outputs, State.adcReq, State.adcSel, State.rspValid, hm]
  · cases hm : s.mState with
    | idle => simp
    | reqY | gap | reqX | resp =>
      obtain ⟨v, rfl, hmState, hyLat, -⟩ := step_of_busy_mapper hr h (by simp [hm])
      cases hack : s.inputs.adcAck <;> simp [mapperStep, hm, hack, hmState, hyLat]

/-! Runs: the last tick of one, and the inputs after it. -/

theorem runTicks_succ_iff {k : Nat} {s t : State} :
    runTicks (k + 1) s = .next t ↔ ∃ s', step s = .next s' ∧ runTicks k s' = .next t := by
  refine ⟨fun h => ?_, fun ⟨s', hs, h⟩ => (runTicks_succ hs).trans h⟩
  have hcore : core.step s = step s := rfl
  simp only [runTicks, Host.Core.run, hcore] at h
  cases hs : step s with
  | next s' => exact ⟨s', rfl, by simpa only [hs] using h⟩
  | fault f => rw [hs] at h; cases h
  | refused r => rw [hs] at h; cases h

theorem runTicks_snoc {k : Nat} {s t u : State} (hrun : runTicks k s = .next t) (h : step t = .next u) :
    runTicks (k + 1) s = .next u := by
  induction k generalizing s with
  | zero => cases hrun; exact runTicks_succ h
  | succ k ih =>
    obtain ⟨s', hs, hrun⟩ := runTicks_succ_iff.mp hrun
    rw [runTicks_succ hs]
    exact ih hrun

theorem runTicks_inputsAt {k : Nat} {s t : State} (hrun : runTicks k s = .next t) (j : Nat) :
    t.inputsAt j = s.inputsAt (k + j) := by
  induction k generalizing s with
  | zero => cases hrun; rw [Nat.zero_add]
  | succ k ih =>
    obtain ⟨s', hs, hrun⟩ := runTicks_succ_iff.mp hrun
    rw [ih hrun, step_inputsAt hs, Nat.add_right_comm]

theorem runTicks_inputs {k : Nat} {s t : State} (hrun : runTicks k s = .next t) : t.inputs = s.inputsAt k :=
  runTicks_inputsAt hrun 0

/-! A READ_INDEX in progress. -/

/-- `t` is the state `k` ticks after `s`, with the sequencer in `m`, the walker at rest and the block not halted. -/
structure SamplingAt (s : State) (k : Nat) (m : MState) (t : State) : Prop where
  run : runTicks k s = .next t
  mState : t.mState = m
  walker : t.wActive = false
  live : t.life ≠ .halted

/-- A tick of a READ_INDEX in progress: the sequencer's step, with the inputs of that tick, and the encoder's beside it. -/
theorem SamplingAt.step {s t : State} {k : Nat} {m : MState} (h : SamplingAt s k m t) (hm : m ≠ .idle)
    (hr : (s.inputsAt k).rst = false) : t.inputs = s.inputsAt k ∧
    SamplingAt s (k + 1) (mapperStep t (encoderStep t t)).mState
      (advance t (lowRunStep t (mapperStep t (encoderStep t t)))) := by
  obtain ⟨hrun, hmState, hwalker, hlive⟩ := h
  have hin := runTicks_inputs hrun
  have hstep := step_of_no_reset (hin ▸ hr) (commandStep_of_mapper (hmState ▸ hm))
    (walkerStep_inactive (encoderStep t t) hwalker)
  exact ⟨hin, runTicks_snoc hrun hstep, rfl, by simp [hwalker], by simp [hlive]⟩

/-- The accepting tick leads to the first request. -/
theorem samplingAt_of_accepts {s : State} (haccepts : s.Accepts .readIndex) (hready : s.mapReady = true) :
    ∃ t, SamplingAt s 1 .reqY t := by
  obtain ⟨hlive, hwalker, -⟩ := idle_of_accepts haccepts.1
  have hstep := step_of_accepts haccepts (exec_readIndex_of_mapReady hready)
  exact ⟨_, runTicks_snoc (k := 0) rfl hstep, by simp, by simp [hwalker], by simp [hlive]⟩

section
variable {s t : State} {k N : Nat} (hr : s.NoReset N)
include hr

/-- Both requests wait for the sensor, and the Y sample stays latched meanwhile. -/
theorem SamplingAt.wait {m : MState} (h : SamplingAt s k m t) (hm : m = .reqY ∨ m = .reqX) (n : Nat) (hk : k + n ≤ N)
    (hwait : ∀ j, k ≤ j → j < k + n → (s.inputsAt j).adcAck = false) :
    ∃ u, SamplingAt s (k + n) m u ∧ u.yLat = t.yLat := by
  induction n with
  | zero => exact ⟨t, h, rfl⟩
  | succ n ih =>
    obtain ⟨u, hu, hlat⟩ := ih (by omega) fun j hj hjn => hwait j hj (by omega)
    obtain ⟨hin, hnext⟩ := hu.step (by rcases hm with rfl | rfl <;> decide) (hr _ (by omega))
    have hstay : mapperStep u (encoderStep u u) = encoderStep u u := by
      have hack : u.inputs.adcAck = false := hin ▸ hwait (k + n) (by omega) (by omega)
      rcases hm with rfl | rfl <;> simp [mapperStep, hu.mState, hack]
    rw [hstay] at hnext
    exact ⟨_, by simpa [hu.mState, Nat.add_assoc] using hnext, by simpa using hlat⟩

theorem SamplingAt.gap_of_reqY (h : SamplingAt s k .reqY t) (hk : k < N) (hack : (s.inputsAt k).adcAck = true) :
    ∃ u, SamplingAt s (k + 1) .gap u ∧ u.yLat = (s.inputsAt k).adcData := by
  obtain ⟨hin, hnext⟩ := h.step (by decide) (hr k hk)
  exact ⟨_, by simpa [mapperStep, h.mState, hin, hack] using hnext, by simp⟩

theorem SamplingAt.reqX_of_gap (h : SamplingAt s k .gap t) (hk : k < N) :
    ∃ u, SamplingAt s (k + 1) .reqX u ∧ u.yLat = t.yLat := by
  obtain ⟨-, hnext⟩ := h.step (by decide) (hr k hk)
  exact ⟨_, by simpa [mapperStep, h.mState] using hnext, by simp⟩

theorem SamplingAt.resp_of_reqX (h : SamplingAt s k .reqX t) (hk : k < N) (hack : (s.inputsAt k).adcAck = true) :
    ∃ u, SamplingAt s (k + 1) .resp u ∧ u.idxLat = mapIndex (s.inputsAt k).adcData t.yLat := by
  obtain ⟨hin, hnext⟩ := h.step (by decide) (hr k hk)
  exact ⟨_, by simpa [mapperStep, h.mState, hin, hack] using hnext, by simp⟩

theorem SamplingAt.idle_of_resp (h : SamplingAt s k .resp t) (hk : k < N) : ∃ u, SamplingAt s (k + 1) .idle u := by
  obtain ⟨-, hnext⟩ := h.step (by decide) (hr k hk)
  exact ⟨_, by simpa [mapperStep, h.mState] using hnext⟩

end

/-- The outputs of a tick of a READ_INDEX before its response. -/
theorem SamplingAt.outputs_before_resp {s t : State} {k : Nat} {m : MState} (h : SamplingAt s k m t)
    (hm : m = .reqY ∨ m = .gap ∨ m = .reqX) :
    t.rspValid = false ∧ t.cmdReady = false ∧ (t.outputs.adcReq = true ↔ m ≠ .gap) ∧
    (t.outputs.adcSel = true ↔ m = .reqY) := by
  rcases hm with rfl | rfl | rfl <;>
    simp [State.rspValid, State.cmdReady, State.outputs, State.adcReq, State.adcSel, h.mState]

/-- Settles O50: the run of a READ_INDEX is a request with its wait, the gap, the other request with its wait, the response
and the idle mapper; each stretch is one of the `SamplingAt` lemmas. -/
theorem readIndexDeliversTheIndex : Obligations.ReadIndexDeliversTheIndex := by
  intro s n m x y haccepts hready hr hwaitY hackY hy hwaitX hackX hx
  subst hx hy
  obtain ⟨t1, h1⟩ := samplingAt_of_accepts haccepts hready
  have hreqY (j : Nat) (hj : j ≤ n) : ∃ t, SamplingAt s (1 + j) .reqY t := by
    obtain ⟨t, h, -⟩ := h1.wait hr (.inl rfl) j (by omega) fun i hi hij => hwaitY i hi (by omega)
    exact ⟨t, h⟩
  obtain ⟨tY, hY⟩ := hreqY n le_rfl
  rw [Nat.add_comm 1] at hY
  obtain ⟨tG, hG, hlatG⟩ := hY.gap_of_reqY hr (by omega) hackY
  obtain ⟨tX, hX, hlatX⟩ := hG.reqX_of_gap hr (by omega)
  have hreqX (j : Nat) (hj : j ≤ m) : ∃ t, SamplingAt s (n + 3 + j) .reqX t ∧ t.yLat = tX.yLat :=
    hX.wait hr (.inr rfl) j (by omega) fun i hi hij => hwaitX i hi (by omega)
  obtain ⟨tL, hL, hlatL⟩ := hreqX m le_rfl
  rw [Nat.add_right_comm] at hL
  obtain ⟨tR, hR, hidx⟩ := hL.resp_of_reqX hr (by omega) hackX
  obtain ⟨tI, hI⟩ := hR.idle_of_resp hr (by omega)
  refine ⟨fun k hk hkm => ?_, ⟨tR, hR.run, ?_⟩, ⟨tI, hI.run, ?_⟩⟩
  · rcases Nat.lt_trichotomy k (n + 2) with hlt | rfl | hgt
    · obtain ⟨t, ht⟩ := hreqY (k - 1) (by omega)
      rw [Nat.add_sub_cancel' hk] at ht
      obtain ⟨hrsp, hcmd, hreq, hsel⟩ := ht.outputs_before_resp (.inl rfl)
      exact ⟨t, ht.run, hrsp, hcmd, hreq.trans (iff_of_true (by decide) (by omega)),
        hsel.trans (iff_of_true rfl (by omega))⟩
    · obtain ⟨hrsp, hcmd, hreq, hsel⟩ := hG.outputs_before_resp (.inr (.inl rfl))
      exact ⟨tG, hG.run, hrsp, hcmd, hreq.trans (by simp), hsel.trans (iff_of_false (by decide) (by omega))⟩
    · obtain ⟨t, ht, -⟩ := hreqX (k - (n + 3)) (by omega)
      rw [Nat.add_sub_cancel' hgt] at ht
      obtain ⟨hrsp, hcmd, hreq, hsel⟩ := ht.outputs_before_resp (.inr (.inr rfl))
      exact ⟨t, ht.run, hrsp, hcmd, hreq.trans (iff_of_true (by decide) (by omega)),
        hsel.trans (iff_of_false (by decide) (by omega))⟩
  · have hyLat : tL.yLat = (s.inputsAt (n + 1)).adcData := hlatL.trans (hlatX.trans hlatG)
    rw [← hyLat]
    exact ⟨by simp [State.rspValid, hR.mState], hidx, by simp [State.cmdReady, hR.mState],
      by simp [State.outputs, State.adcReq, hR.mState]⟩
  · exact ⟨by simp [State.rspValid, hI.mState], cmdReady_iff.mpr ⟨hI.live, hI.walker, hI.mState⟩,
      by simp [State.outputs, State.adcReq, hI.mState]⟩

end Sys2Proof.Machine
end

section
/-! Driver and mapper (R2, R3): neither side's commands or agents write or read the other side's elements. -/

namespace Sys2Proof.Machine

/-! Commands write their own side only. -/

theorem raiseFault_mapperSide (f : BlockFault) (s : State) : (raiseFault f s).mapperSide = s.mapperSide := by
  cases f <;> rfl

theorem raiseFault_driverSide {f : BlockFault} (hf : f ≠ .noSequencer) (s : State) :
    (raiseFault f s).driverSide = s.driverSide := by
  cases f with
  | noSequencer => exact absurd rfl hf
  | indexRange | illegalCommand | wrongState => rfl

theorem initDriver_mapperSide (c : Option (BitVec 1 × Nat)) (pin : PinNumber) (s : State) :
    (initDriver c pin s).mapperSide = s.mapperSide := by
  cases c <;> rfl

theorem exec_writes_own_side {i : Instr} {s t : State} (h : exec i s = .next t) :
    (ofDriver i = true → t.mapperSide = s.mapperSide) ∧ (ofDriver i = false → t.driverSide = s.driverSide) := by
  rcases exec_cases h with ⟨_, rfl, -, rfl⟩ | ⟨_, _, _, _, rfl, -, -, rfl⟩ | ⟨_, _, _, _, rfl, -, -, rfl⟩ |
    ⟨rfl, -, rfl⟩ | ⟨rfl, -, rfl⟩ | ⟨rfl, rfl⟩ | ⟨rfl, -, rfl⟩ | ⟨rfl, -⟩
  · exact ⟨fun _ => initDriver_mapperSide _ _ _, nofun⟩
  · exact ⟨fun _ => rfl, nofun⟩
  · exact ⟨fun _ => rfl, nofun⟩
  · exact ⟨fun _ => rfl, nofun⟩
  · exact ⟨fun _ => rfl, nofun⟩
  · exact ⟨nofun, fun _ => rfl⟩
  · exact ⟨nofun, fun _ => rfl⟩
  · exact ⟨fun _ => raiseFault_mapperSide _ s, fun _ => raiseFault_driverSide (by decide) s⟩

/-! Commands read their own side only: what a command does is one operation, the same in two states with the same side, and
the operation writes both alike. -/

/-- The operation writes the driver's elements alike in two states with the same driver's side, and its fault flags. -/
def RespectsDriver (op : State → State) : Prop :=
  ∀ s s' : State, s.driverSide = s'.driverSide → (op s).driverSide = (op s').driverSide ∧
    (s.errState = s'.errState → (op s).errState = (op s').errState) ∧
    (s.errIndex = s'.errIndex → (op s).errIndex = (op s').errIndex)

/-- The same for the mapper's elements. -/
def RespectsMapper (op : State → State) : Prop :=
  ∀ s s' : State, s.mapperSide = s'.mapperSide → (op s).mapperSide = (op s').mapperSide ∧
    (s.errState = s'.errState → (op s).errState = (op s').errState) ∧
    (s.errIndex = s'.errIndex → (op s).errIndex = (op s').errIndex)

theorem raiseFault_respectsDriver (f : BlockFault) : RespectsDriver (raiseFault f) := by
  intro s s' h
  rw [driverSide_eq_iff] at h
  simp +contextual [driverSide_eq_iff, h]

theorem initDriver_respectsDriver (c : Option (BitVec 1 × Nat)) (pin : PinNumber) : RespectsDriver (initDriver c pin) := by
  cases c with
  | none => exact raiseFault_respectsDriver .noSequencer
  | some c =>
    intro s s' h
    rw [driverSide_eq_iff] at h
    simp [driverSide_eq_iff, h, initDriver]

theorem writePixel_respectsDriver (x : PixIndex) (px : Pixel) : RespectsDriver (writePixel · x px) := by
  intro s s' h
  rw [driverSide_eq_iff] at h
  simp [driverSide_eq_iff, h]

theorem clearPixels_respectsDriver : RespectsDriver clearPixels := by
  intro s s' h
  rw [driverSide_eq_iff] at h
  simp [driverSide_eq_iff, h]

theorem startWalker_respectsDriver : RespectsDriver startWalker := by
  intro s s' h
  rw [driverSide_eq_iff] at h
  simp [driverSide_eq_iff, h]

theorem raiseFault_respectsMapper (f : BlockFault) : RespectsMapper (raiseFault f) := by
  intro s s' h
  simp +contextual [raiseFault_mapperSide, h]

theorem configureMapper_respectsMapper : RespectsMapper fun s => { s with mapReady := true } := by
  intro s s' h
  rw [mapperSide_eq_iff] at h
  simp [mapperSide_eq_iff, h]

theorem startSequencer_respectsMapper : RespectsMapper fun s => { s with mState := .reqY } := by
  intro s s' h
  rw [mapperSide_eq_iff] at h
  simp [mapperSide_eq_iff, h]

/-- A driver command's operation is chosen by LIFE, SLOTS and the masks of the tick. -/
theorem exec_driver_operation {i : Instr} {s s' : State} (hi : ofDriver i = true) (h : s.driverSide = s'.driverSide)
    (hmask0 : s.inputs.seqFree0 = s'.inputs.seqFree0) (hmask1 : s.inputs.seqFree1 = s'.inputs.seqFree1) :
    ∃ op, RespectsDriver op ∧ exec i s = .next (op s) ∧ exec i s' = .next (op s') := by
  obtain ⟨-, hlife, -, -, -, -, -, -, -, -, -, -, -, -, hparams⟩ := driverSide_eq_iff.mp h
  cases i with
  | drvInit pin =>
    by_cases huninit : s.life = .uninit
    · refine ⟨_, initDriver_respectsDriver (claim s.params.slots s.inputs.seqFree0 s.inputs.seqFree1) pin,
        exec_drvInit_of_uninit pin huninit, ?_⟩
      rw [exec_drvInit_of_uninit pin (hlife ▸ huninit), hparams, hmask0, hmask1]
    · exact ⟨_, raiseFault_respectsDriver _, exec_drvInit_of_not_uninit pin huninit,
        exec_drvInit_of_not_uninit pin (hlife ▸ huninit)⟩
  | setPixel x r g b =>
    by_cases hready : s.life = .ready
    · rcases Nat.lt_or_ge 24 x.toNat with hx | hx
      · exact ⟨_, raiseFault_respectsDriver _, exec_setPixel_of_ge r g b hready hx,
          exec_setPixel_of_ge r g b (hlife ▸ hready) hx⟩
      · exact ⟨_, writePixel_respectsDriver x ⟨r, g, b⟩, exec_setPixel_of_le r g b hready hx,
          exec_setPixel_of_le r g b (hlife ▸ hready) hx⟩
    · exact ⟨_, raiseFault_respectsDriver _, exec_setPixel_of_not_ready x r g b hready,
        exec_setPixel_of_not_ready x r g b (hlife ▸ hready)⟩
  | clear =>
    by_cases hready : s.life = .ready
    · exact ⟨_, clearPixels_respectsDriver, exec_clear_of_ready hready, exec_clear_of_ready (hlife ▸ hready)⟩
    · exact ⟨_, raiseFault_respectsDriver _, exec_clear_of_not_ready hready, exec_clear_of_not_ready (hlife ▸ hready)⟩
  | transmit =>
    by_cases hready : s.life = .ready
    · exact ⟨_, startWalker_respectsDriver, exec_transmit_of_ready hready, exec_transmit_of_ready (hlife ▸ hready)⟩
    · exact ⟨_, raiseFault_respectsDriver _, exec_transmit_of_not_ready hready,
        exec_transmit_of_not_ready (hlife ▸ hready)⟩
  | mapInit | readIndex => cases hi

/-- A mapper command's operation is chosen by MAP_READY. -/
theorem exec_mapper_operation {i : Instr} {s s' : State} (hi : ofDriver i = false) (h : s.mapperSide = s'.mapperSide) :
    ∃ op, RespectsMapper op ∧ exec i s = .next (op s) ∧ exec i s' = .next (op s') := by
  obtain ⟨hmapReady, -⟩ := mapperSide_eq_iff.mp h
  cases i with
  | drvInit | setPixel | clear | transmit => cases hi
  | mapInit => exact ⟨_, configureMapper_respectsMapper, rfl, rfl⟩
  | readIndex =>
    cases hready : s.mapReady with
    | true =>
      exact ⟨_, startSequencer_respectsMapper, exec_readIndex_of_mapReady hready,
        exec_readIndex_of_mapReady (hmapReady ▸ hready)⟩
    | false =>
      exact ⟨_, raiseFault_respectsMapper _, exec_readIndex_of_not_mapReady hready,
        exec_readIndex_of_not_mapReady (hmapReady ▸ hready)⟩

/-! A tick. The same word is accepted in both states, or none. -/

section
variable {s s' c c' : State} (haccepts : s.accepts = s'.accepts)
  (hword : s.accepts = true → s.inputs.cmdWord = s'.inputs.cmdWord)
  (hc : commandStep s = .next c) (hc' : commandStep s' = .next c')
include haccepts hword hc hc'

/-- The two command steps do nothing, raise IllegalCommand, or apply one command. -/
theorem commandStep_alike : (c = s ∧ c' = s') ∨
    (c = raiseFault .illegalCommand s ∧ c' = raiseFault .illegalCommand s') ∨
    s.accepts = true ∧ ∃ i, exec i s = .next c ∧ exec i s' = .next c' := by
  rcases commandStep_cases hc with ⟨ha, rfl⟩ | ⟨ha, i, hd, he⟩ | ⟨ha, ⟨why, hd⟩, rfl⟩
  · rw [commandStep_not_accepted (haccepts ▸ ha)] at hc'
    exact .inl ⟨rfl, (Host.Outcome.next.inj hc').symm⟩
  · rw [commandStep_accepted ⟨haccepts ▸ ha, hword ha ▸ hd⟩] at hc'
    exact .inr (.inr ⟨ha, i, he, hc'⟩)
  · rw [commandStep_of_illegal (haccepts ▸ ha) (hword ha ▸ hd)] at hc'
    exact .inr (.inl ⟨rfl, (Host.Outcome.next.inj hc').symm⟩)

theorem commandStep_driverSide (h : s.driverSide = s'.driverSide)
    (hmask : s.accepts = true → s.inputs.seqFree0 = s'.inputs.seqFree0 ∧ s.inputs.seqFree1 = s'.inputs.seqFree1) :
    c.driverSide = c'.driverSide := by
  rcases commandStep_alike haccepts hword hc hc' with ⟨rfl, rfl⟩ | ⟨rfl, rfl⟩ | ⟨ha, i, he, he'⟩
  · exact h
  · exact (raiseFault_respectsDriver _ _ _ h).1
  · cases hi : ofDriver i with
    | true =>
      obtain ⟨op, hop, hs, hs'⟩ := exec_driver_operation hi h (hmask ha).1 (hmask ha).2
      cases he.symm.trans hs
      cases he'.symm.trans hs'
      exact (hop _ _ h).1
    | false => rw [(exec_writes_own_side he).2 hi, (exec_writes_own_side he').2 hi, h]

theorem commandStep_mapperSide (h : s.mapperSide = s'.mapperSide) : c.mapperSide = c'.mapperSide := by
  rcases commandStep_alike haccepts hword hc hc' with ⟨rfl, rfl⟩ | ⟨rfl, rfl⟩ | ⟨ha, i, he, he'⟩
  · exact h
  · exact (raiseFault_respectsMapper _ _ _ h).1
  · cases hi : ofDriver i with
    | true => rw [(exec_writes_own_side he).1 hi, (exec_writes_own_side he').1 hi, h]
    | false =>
      obtain ⟨op, hop, hs, hs'⟩ := exec_mapper_operation hi h
      cases he.symm.trans hs
      cases he'.symm.trans hs'
      exact (hop _ _ h).1

end

/-! The agents of each side. -/

section
variable {s s' t t' : State} (h : s.driverSide = s'.driverSide) (ht : t.driverSide = t'.driverSide)
include h

theorem dout_congr : s.dout = s'.dout := by
  rw [driverSide_eq_iff] at h
  simp only [State.dout, h]

include ht

theorem encoderStep_driverSide : (encoderStep s t).driverSide = (encoderStep s' t').driverSide := by
  rw [driverSide_eq_iff] at h ht
  simp only [encoderStep, h]
  (repeat' split) <;> simp [driverSide_eq_iff, ht]

theorem walkerAdvance_driverSide : (walkerAdvance s t).driverSide = (walkerAdvance s' t').driverSide := by
  rw [driverSide_eq_iff] at h ht
  simp only [walkerAdvance, h]
  (repeat' split) <;> simp [driverSide_eq_iff, ht]

theorem walkerStep_driverSide {u u' : State} (hu : walkerStep s t = .next u) (hu' : walkerStep s' t' = .next u') :
    u.driverSide = u'.driverSide := by
  obtain ⟨hfb, -, -, -, -, hactive, hpix, hch, hfifo, -, -, -, -, -, hparams⟩ := driverSide_eq_iff.mp h
  have hpush : s.walkerPushes = s'.walkerPushes := by
    simp only [State.walkerPushes, State.fifoHasRoom, hactive, hfifo, hparams]
  have hbyte : walkerByte s.fb s.wPix s.wCh = walkerByte s'.fb s'.wPix s'.wCh := by rw [hfb, hpix, hch]
  rcases walkerStep_cases hu with ⟨hp, rfl⟩ | ⟨hp, b, hb, rfl⟩ <;>
    rcases walkerStep_cases hu' with ⟨hp', rfl⟩ | ⟨hp', b', hb', rfl⟩
  · exact ht
  · exact absurd (hp.symm.trans (hpush.trans hp')) Bool.false_ne_true
  · exact absurd (hp'.symm.trans (hpush.symm.trans hp)) Bool.false_ne_true
  · cases hb.symm.trans (hbyte.trans hb')
    refine walkerAdvance_driverSide h ?_
    rw [driverSide_eq_iff] at ht
    simp [driverSide_eq_iff, ht]

/-- The driver's elements after the tick are those after the walker's step, but for the observer's LOW_RUN. -/
theorem tick_driverSide : (advance s (lowRunStep s (mapperStep s t))).driverSide =
    (advance s' (lowRunStep s' (mapperStep s' t'))).driverSide := by
  have hdout := dout_congr h
  rw [driverSide_eq_iff] at h ht
  simp [driverSide_eq_iff, hdout, h, ht]

end

theorem walkerStep_encoderStep_mapperSide {s t v : State} (h : walkerStep s (encoderStep s t) = .next v) :
    v.mapperSide = t.mapperSide := by
  obtain ⟨-, -, hmapReady, -, -, -, -, -, -, hmState, hyLat, hidxLat, -⟩ := walkerStep_encoderStep_frame h
  exact mapperSide_eq_iff.mpr ⟨hmapReady, hmState, hyLat, hidxLat⟩

theorem tick_mapperSide {s s' t t' : State} (h : s.mapperSide = s'.mapperSide) (ht : t.mapperSide = t'.mapperSide)
    (hack : s.inputs.adcAck = s'.inputs.adcAck) (hdata : s.inputs.adcData = s'.inputs.adcData) :
    (advance s (lowRunStep s (mapperStep s t))).mapperSide =
      (advance s' (lowRunStep s' (mapperStep s' t'))).mapperSide := by
  rw [mapperSide_eq_iff] at h ht
  have hstep : (mapperStep s t).mapperSide = (mapperStep s' t').mapperSide := by
    simp only [mapperStep, h, hack, hdata]
    (repeat' split) <;> simp [mapperSide_eq_iff, ht]
  exact hstep

/-- Settles O51: a command is one operation of its own side (`exec_driver_operation`, `exec_mapper_operation`), and of the
agents encoder, walker and observer read and write the driver's elements, the sequencer the mapper's. -/
theorem driverAndMapperAreIndependent : Obligations.DriverAndMapperAreIndependent := by
  refine ⟨fun i s t => exec_writes_own_side, fun i s s' t t' hi h hmask0 hmask1 he he' => ?_,
    fun i s s' t t' hi h he he' => ?_, fun s s' t t' hr hr' haccepts hword hs hs' => ?_⟩
  · obtain ⟨op, hop, h1, h2⟩ := exec_driver_operation hi h hmask0 hmask1
    cases he.symm.trans h1
    cases he'.symm.trans h2
    exact hop s s' h
  · obtain ⟨op, hop, h1, h2⟩ := exec_mapper_operation hi h
    cases he.symm.trans h1
    cases he'.symm.trans h2
    exact hop s s' h
  · obtain ⟨c, v, hc, hv, rfl, -⟩ := step_commandElements hr hs
    obtain ⟨c', v', hc', hv', rfl, -⟩ := step_commandElements hr' hs'
    refine ⟨fun h hmask => ?_, fun h hack hdata => ?_⟩
    · have hcommand := commandStep_driverSide haccepts hword hc hc' h hmask
      exact tick_driverSide h (walkerStep_driverSide h (encoderStep_driverSide h hcommand) hv hv')
    · have hcommand := commandStep_mapperSide haccepts hword hc hc' h
      refine tick_mapperSide h ?_ hack hdata
      rw [walkerStep_encoderStep_mapperSide hv, walkerStep_encoderStep_mapperSide hv', hcommand]

end Sys2Proof.Machine
end

section
/-! Quiet and start (R174, R176, R181 (a), R184): a quiescent block left alone, and the first three ticks of a TRANSMIT that
finds nothing left to send. -/

namespace Sys2Proof.Machine

/-! A block left alone. -/

/-- A tick without reset and without a command of a quiescent block does no more than count a low tick. -/
theorem step_of_quiescent {s : State} (hquiet : s.Quiescent) (hr : s.inputs.rst = false)
    (hvalid : s.inputs.cmdValid = false) : step s = .next (advance s (lowRunStep s s)) := by
  obtain ⟨hwalker, hmapper, hfifo, hidle⟩ := hquiet
  have hnot : s.accepts = false := by simp [State.accepts, hvalid]
  have hagents : walkerStep s (encoderStep s s) = .next s := by
    rw [walkerStep_inactive _ hwalker, encoderStep_idle s hidle hfifo]
  rw [step_of_no_reset hr (commandStep_not_accepted hnot) hagents, mapperStep_of_idle s hmapper]

theorem runTicks_of_quiescent (n : Nat) {s : State} (hquiet : s.Quiescent) (hr : s.NoReset n) (hc : s.NoCommand n) :
    ∃ t, runTicks n s = .next t ∧ t.Quiescent ∧ t.lowRun = s.lowRun + n := by
  induction n generalizing s with
  | zero => exact ⟨s, rfl, hquiet, rfl⟩
  | succ n ih =>
    have hstep := step_of_quiescent hquiet (hr 0 n.succ_pos) (hc 0 n.succ_pos)
    obtain ⟨t, hrun, hquiet', hlow⟩ := ih (s := advance s (lowRunStep s s)) hquiet (noReset_of_step hstep hr).2
      (noCommand_of_step hstep hc).2
    refine ⟨t, (runTicks_succ hstep).trans hrun, hquiet', ?_⟩
    rw [hlow, advance_lowRun, lowRunStep_lowRun, dout_of_idle hquiet.2.2.2, if_neg Bool.false_ne_true]
    omega

/-- Settles O40: every tick of a quiescent block is a low one, and the two predicates speak of LOW_RUN. -/
theorem quietLineLatches : Obligations.QuietLineLatches := by
  intro s n hquiet hr hc
  obtain ⟨t, hrun, hquiet', hlow⟩ := runTicks_of_quiescent n hquiet hr hc
  refine ⟨t, hrun, hquiet', dout_of_idle hquiet'.2.2.2, hlow, by rw [State.Latched, hlow], fun hn => ⟨hquiet', ?_⟩⟩
  rw [State.Latched, hlow]
  omega

/-! The first three ticks of a TRANSMIT: the walker starts, pushes its first word, and the encoder loads it. -/

/-- A TRANSMIT was accepted in the tick before, with nothing left to send. -/
structure FrameStarted (s t : State) : Prop where
  walker : t.wActive = true
  pix : t.wPix = 0
  ch : t.wCh = 0
  fifo : t.fifo = []
  encoder : t.eRun = false
  mapper : t.mState = .idle
  params : t.params = s.params

theorem step_of_startsFrame {s : State} (hstart : s.StartsFrame) (hfifo : s.fifo = []) (hidle : s.eRun = false) :
    ∃ t, step s = .next t ∧ FrameStarted s t := by
  obtain ⟨-, -, hmapper⟩ := idle_of_accepts hstart.1.1
  have hstep := step_of_accepts hstart.1 (exec_transmit_of_ready hstart.2)
  rw [encoderStep_idle _ hidle hfifo] at hstep
  exact ⟨_, hstep, rfl, rfl, rfl, hfifo, hidle, hmapper, rfl⟩

/-- Two ticks after the acceptance the first word is queued, the encoder still idle. -/
structure FirstWordQueued (s t : State) : Prop where
  walker : t.wActive = true
  pix : t.wPix = 0
  ch : t.wCh = 1
  fifo : ∃ w, t.fifo = [w]
  encoder : t.eRun = false
  params : t.params = s.params

theorem step_of_frameStarted {s t : State} (h : FrameStarted s t) (hdepth : 1 ≤ s.params.fifoDepth)
    (hr : t.inputs.rst = false) : ∃ u, step t = .next u ∧ FirstWordQueued s u := by
  obtain ⟨hwalker, hpix, hch, hfifo, hidle, hmapper, hparams⟩ := h
  obtain ⟨v, hv⟩ := walkerByte_of_le (fb := t.fb) (p := t.wPix) (c := t.wCh) (by simp [hpix]) (by simp [hch])
  have hroom : t.fifo.length < t.params.fifoDepth := by rw [hfifo, hparams]; exact hdepth
  have hstep := step_of_walker_pushes hr hwalker hmapper hroom hv
  rw [encoderStep_idle _ hidle hfifo, walkerAdvance, if_pos (by simp [hch])] at hstep
  exact ⟨_, hstep, hwalker, hpix, by simp [hch], ⟨txWord v, by simp [hfifo]⟩, hidle, hparams⟩

theorem step_of_firstWordQueued {s t : State} (h : FirstWordQueued s t) (hr : t.inputs.rst = false) :
    ∃ u, step t = .next u ∧ u.eRun = true ∧ u.eLeft = 8 ∧ u.eCnt = 0 := by
  obtain ⟨-, hpix, hch, ⟨w, hfifo⟩, hidle, -⟩ := h
  obtain ⟨u, hstep⟩ := step_next (s := t) fun _ => ⟨by simp [hpix], by simp [hch]⟩
  obtain ⟨hrun, -, hleft, hcnt, -⟩ := step_encoder_load hr hstep hfifo fun hrun => absurd hrun (by simp [hidle])
  exact ⟨u, hstep, hrun, hleft, hcnt⟩

/-- The three ticks together. -/
theorem steps_of_startsFrame {s : State} (hstart : s.StartsFrame) (hfifo : s.fifo = []) (hidle : s.eRun = false)
    (hdepth : 1 ≤ s.params.fifoDepth) (hr : s.NoReset 3) :
    ∃ t1 t2 t3, (step s = .next t1 ∧ FrameStarted s t1) ∧ (step t1 = .next t2 ∧ FirstWordQueued s t2) ∧
      step t2 = .next t3 ∧ t3.eRun = true ∧ t3.eLeft = 8 ∧ t3.eCnt = 0 := by
  obtain ⟨t1, hstep1, h1⟩ := step_of_startsFrame hstart hfifo hidle
  obtain ⟨-, hr1⟩ := noReset_of_step hstep1 hr
  obtain ⟨t2, hstep2, h2⟩ := step_of_frameStarted h1 hdepth (hr1 0 (by decide))
  obtain ⟨-, hr2⟩ := noReset_of_step hstep2 hr1
  obtain ⟨t3, hstep3, h3⟩ := step_of_firstWordQueued h2 (hr2 0 (by decide))
  exact ⟨t1, t2, t3, ⟨hstep1, h1⟩, ⟨hstep2, h2⟩, hstep3, h3⟩

/-- A tick of an idle encoder counts on in LOW_RUN. -/
theorem step_lowRun_of_idle {s t : State} (hr : s.inputs.rst = false) (h : step s = .next t) (hidle : s.eRun = false) :
    t.lowRun = s.lowRun + 1 := by
  rw [step_lowRun hr h, dout_of_idle hidle, if_neg Bool.false_ne_true]

/-- The first tick of a cell is high. -/
theorem dout_of_cell_start {s : State} (hp : s.params.wellFormed = true) (hrun : s.eRun = true) (hcnt : s.eCnt = 0) :
    s.dout = true := by
  rw [State.dout, hrun, hcnt]
  exact decide_eq_true (pulseTicks_bounds hp (s.eSr.getLsbD 7)).1

/-- Settles O38: three ticks find the encoder idle, and the fourth begins a cell. -/
theorem resetIntervalIsTheHosts : Obligations.ResetIntervalIsTheHosts := by
  intro s hstart hfifo hidle hp hr
  obtain ⟨-, -, -, hdepth, -⟩ := wellFormed_iff.mp hp
  obtain ⟨t1, t2, t3, ⟨hstep1, h1⟩, ⟨hstep2, h2⟩, hstep3, hrun, -, hcnt⟩ :=
    steps_of_startsFrame hstart hfifo hidle hdepth hr
  obtain ⟨hr0, hr1⟩ := noReset_of_step hstep1 hr
  obtain ⟨hr1, hr2⟩ := noReset_of_step hstep2 hr1
  have hlow : t3.lowRun = s.lowRun + 3 := by
    rw [step_lowRun_of_idle (hr2 0 (by decide)) hstep3 h2.encoder, step_lowRun_of_idle hr1 hstep2 h1.encoder,
      step_lowRun_of_idle hr0 hstep1 hidle]
  have hparams : t3.params = s.params := (step_env hstep3).2.2.trans h2.params
  refine ⟨t3, ?_, dout_of_cell_start (hparams ▸ hp) hrun hcnt, hlow, ?_⟩
  · rw [runTicks_succ hstep1, runTicks_succ hstep2, runTicks_succ hstep3]
    rfl
  · rw [hlow]
    simp [State.KeepsResetInterval, hfifo, hidle]

end Sys2Proof.Machine
end

section
/-! The wire (R167 to R172, R181, R182): as long as owed bits are at hand in time, the encoder puts their cells on `dout`
one after the other without a gap. -/

namespace Sys2Proof.Machine

/-! The encoder's countdown. -/

/-- How many ticks the encoder still needs before the tick in which it can take a word (R178). -/
def State.ticksLeft (s : State) : Nat := if s.eRun then 10 * (s.eLeft.toNat - 1) + (9 - s.eCnt.toNat) else 0

theorem ticksLeft_of_running {s : State} (h : s.eRun = true) :
    s.ticksLeft = 10 * (s.eLeft.toNat - 1) + (9 - s.eCnt.toNat) := if_pos h

theorem ticksLeft_of_load {s : State} (hrun : s.eRun = true) (hleft : s.eLeft = 8) (hcnt : s.eCnt = 0) :
    s.ticksLeft = 79 := by
  rw [ticksLeft_of_running hrun, hleft, hcnt]; rfl

theorem ticksLeft_le {s : State} (hinv : s.Inv) : s.ticksLeft ≤ 79 := by
  obtain ⟨-, -, -, -, -, hencoder, -⟩ := hinv
  unfold State.ticksLeft
  split
  · obtain ⟨-, height, -⟩ := hencoder ‹_›
    omega
  · omega

section
variable {s t : State} (hinv : s.Inv) (hr : s.inputs.rst = false) (h : step s = .next t)
include hinv hr h

theorem step_ticksLeft_of_pos (hpos : 0 < s.ticksLeft) :
    t.eRun = true ∧ t.ticksLeft + 1 = s.ticksLeft ∧ s.encoderPops = false := by
  obtain ⟨-, -, -, -, -, hencoder, -⟩ := hinv
  have hrun : s.eRun = true := by
    by_contra hidle
    simp [State.ticksLeft, hidle] at hpos
  obtain ⟨hone, height, hnine⟩ := hencoder hrun
  change s.eCnt.toNat ≤ 9 at hnine
  rw [ticksLeft_of_running hrun] at hpos ⊢
  rcases Nat.lt_or_ge s.eCnt.toNat 9 with hcnt | hcnt
  · obtain ⟨hrun', -, hleft, hcnt', hpop⟩ := step_encoder_inside_cell hr h hrun hcnt
    exact ⟨hrun', by rw [ticksLeft_of_running hrun', hleft, hcnt']; omega, hpop⟩
  · obtain ⟨hrun', -, hleft, hcnt', hpop⟩ := step_encoder_end_of_cell hr h hrun hcnt (by omega)
    exact ⟨hrun', by rw [ticksLeft_of_running hrun', hleft, hcnt']; simp; omega, hpop⟩

/-- At the end of the countdown a queued word is loaded. -/
theorem step_ticksLeft_of_zero (hzero : s.ticksLeft = 0) (hfifo : s.fifo ≠ []) :
    t.eRun = true ∧ t.ticksLeft = 79 ∧ s.encoderPops = true := by
  obtain ⟨-, -, -, -, -, hencoder, -⟩ := hinv
  obtain ⟨w, rest, hcons⟩ := List.exists_cons_of_ne_nil hfifo
  have hend (hrun : s.eRun = true) : 9 ≤ s.eCnt.toNat ∧ s.eLeft.toNat ≤ 1 := by
    rw [ticksLeft_of_running hrun] at hzero
    omega
  obtain ⟨hrun', -, hleft, hcnt, hpop⟩ := step_encoder_load hr h hcons hend
  exact ⟨hrun', ticksLeft_of_load hrun' hleft hcnt, hpop⟩

end

/-! Bits that are sent in time. -/

/-- The block owes the wire `bits` before all others, is inside their first cell if there is one, and has the word after the
encoder's, if `bits` go on there, in the queue or will have it there before the encoder needs it. -/
structure Sending (s : State) (bits : List Bool) : Prop where
  owed : bits <+: s.owedBits
  running : bits ≠ [] → s.eRun = true
  fed : s.encoderBits.length < bits.length → s.fifo ≠ [] ∨ s.wActive = true ∧ 0 < s.ticksLeft

/-- Bits owed beyond the encoder's are in the queue or still to be pushed. -/
theorem fifo_or_walker_of_owed {s : State} (h : s.encoderBits.length < s.owedBits.length) :
    s.fifo ≠ [] ∨ s.wActive = true := by
  by_contra hnone
  obtain ⟨hfifo, hactive⟩ := not_or.mp hnone
  simp [State.owedBits, State.pendingWords, not_not.mp hfifo, hactive] at h

/-- Right after a load nothing is needed but owed bits. -/
theorem sending_of_load {s : State} {bits : List Bool} (howed : bits <+: s.owedBits) (hrun : s.eRun = true)
    (hleft : 0 < s.ticksLeft) : Sending s bits :=
  ⟨howed, fun _ => hrun, fun hmore =>
    (fifo_or_walker_of_owed (Nat.lt_of_lt_of_le hmore howed.length_le)).imp_right fun hactive => ⟨hactive, hleft⟩⟩

/-- A tick without reset takes the completed bit off the front of what is owed, and appends at the end only. -/
theorem step_owedBits_prefix {s t : State} (hinv : s.Inv) (hr : s.inputs.rst = false) (h : step s = .next t)
    {bits : List Bool} (howed : bits <+: s.owedBits) : bits.drop s.completedBits.length <+: t.owedBits := by
  obtain ⟨hnot, hstart⟩ := owedBitsAreConserved s t hinv hr h
  have hprefix : bits <+: s.completedBits ++ t.owedBits := by
    by_cases hframe : s.StartsFrame
    · rw [← hstart hframe]; exact howed.trans (List.prefix_append _ _)
    · rwa [← hnot hframe]
  simpa using hprefix.drop s.completedBits.length

/-- The encoder's bits in its last tick of a word. -/
theorem lengths_of_ticksLeft_zero {s : State} (hinv : s.Inv) (hrun : s.eRun = true) (hzero : s.ticksLeft = 0) :
    s.encoderBits.length = 1 ∧ s.completedBits.length = 1 := by
  obtain ⟨-, -, -, -, -, hencoder, -⟩ := hinv
  obtain ⟨hone, height, hnine⟩ := hencoder hrun
  change s.eCnt.toNat ≤ 9 at hnine
  rw [ticksLeft_of_running hrun] at hzero
  refine ⟨?_, by rw [completedBits_end_of_cell hrun (by omega)]; rfl⟩
  rw [encoderBits_of_running hrun, List.length_take, length_byteBits]
  omega

/-- A word that is to push finds room in an empty queue. -/
theorem step_fifo_ne_nil {s t : State} (hinv : s.Inv) (hdepth : 1 ≤ s.params.fifoDepth) (hr : s.inputs.rst = false)
    (h : step s = .next t) (hpop : s.encoderPops = false) (hsource : s.fifo ≠ [] ∨ s.wActive = true) : t.fifo ≠ [] := by
  by_cases hfifo : s.fifo = []
  · have hactive := hsource.resolve_left (not_not.mpr hfifo)
    obtain ⟨t', w, rest, h', -, hfifo', -⟩ := walkerPushesTheNextWord s hinv hr hactive (hfifo ▸ hdepth)
    cases h.symm.trans h'
    simp [hfifo']
  · obtain ⟨pushed, hpushed, -⟩ := step_fifo_pushes_at_most_one hr h
    simp [hpushed, hpop, hfifo]

theorem Sending.step {s t : State} {bits : List Bool} (hsend : Sending s bits) (hbits : bits ≠ []) (hinv : s.Inv)
    (hdepth : 1 ≤ s.params.fifoDepth) (hr : s.inputs.rst = false) (h : step s = .next t) :
    Sending t (bits.drop s.completedBits.length) := by
  obtain ⟨howed, hrunning, hfed⟩ := hsend
  have hrun := hrunning hbits
  have howed' := step_owedBits_prefix hinv hr h howed
  rcases Nat.eq_zero_or_pos s.ticksLeft with hzero | hpos
  · obtain ⟨hlen, hcompleted⟩ := lengths_of_ticksLeft_zero hinv hrun hzero
    by_cases hfifo : s.fifo = []
    · have hlast : bits.drop s.completedBits.length = [] := by
        have hnot := mt hfed (by simp [hfifo, hzero])
        exact List.drop_eq_nil_of_le (by omega)
      rw [hlast]
      exact ⟨List.nil_prefix, absurd rfl, fun hlt => absurd hlt (Nat.not_lt_zero _)⟩
    · obtain ⟨hrun', hleft, -⟩ := step_ticksLeft_of_zero hinv hr h hzero hfifo
      exact sending_of_load howed' hrun' (by omega)
  · obtain ⟨hrun', -, hpop⟩ := step_ticksLeft_of_pos hinv hr h hpos
    refine ⟨howed', fun _ => hrun',
      fun hmore => .inl (step_fifo_ne_nil hinv hdepth hr h hpop ((hfed ?_).imp_right And.left))⟩
    have hencoder := congrArg List.length (step_encoderBits hinv hr h)
    simp [hpop] at hencoder
    simp at hmore
    omega

/-! The cells on `dout`. -/

theorem length_cellLevels {p : Config.Params} (hp : p.wellFormed = true) (b : Bool) : (cellLevels p b).length = 10 := by
  have := (pulseTicks_bounds hp b).2
  simp [cellLevels, Config.cellTicks]
  omega

theorem getElem?_cellLevels (p : Config.Params) (b : Bool) {k : Nat} (hk : k < 10) :
    (cellLevels p b)[k]? = some (decide (k < pulseTicks p b)) := by
  rw [cellLevels, List.getElem?_append, List.length_replicate]
  split
  · simp [*]
  · rw [List.getElem?_replicate_of_lt (by rw [Config.cellTicks]; omega)]
    simp [*]

/-- The bit being sent is the first one owed. -/
theorem Sending.head_eq {s : State} {b : Bool} {bits : List Bool} (hsend : Sending s (b :: bits)) (hinv : s.Inv) :
    s.eSr.getLsbD 7 = b := by
  have hrun := hsend.running (by simp)
  obtain ⟨-, -, -, -, -, hencoder, -⟩ := hinv
  obtain ⟨hone, height, -⟩ := hencoder hrun
  obtain ⟨rest, hrest⟩ := hsend.owed
  rw [State.owedBits, encoderBits_of_running hrun, ← Nat.sub_add_cancel hone, take_byteBits_succ _ (by omega)] at hrest
  exact (List.cons.inj hrest).1.symm

/-- The cells of a sequence, cut inside the first cell: its level there, and the rest. -/
theorem drop_cells_cons {p : Config.Params} (hp : p.wellFormed = true) (b : Bool) (bits : List Bool) {cnt : Nat}
    (hcnt : cnt < 10) : (cells p (b :: bits)).drop cnt =
      decide (cnt < pulseTicks p b) :: (cells p (b :: bits)).drop (cnt + 1) := by
  have hlt : cnt < (cellLevels p b).length := by rwa [length_cellLevels hp]
  have hget : (cells p (b :: bits))[cnt]? = some (decide (cnt < pulseTicks p b)) := by
    rw [cells, List.flatMap_cons, List.getElem?_append_left hlt, getElem?_cellLevels p b hcnt]
  obtain ⟨hbound, hget⟩ := List.getElem?_eq_some_iff.mp hget
  rw [List.drop_eq_getElem_cons hbound, hget]

theorem drop_cells_whole_cell {p : Config.Params} (hp : p.wellFormed = true) (b : Bool) (bits : List Bool) :
    (cells p (b :: bits)).drop 10 = cells p bits := by
  rw [cells, List.flatMap_cons, List.drop_left' (length_cellLevels hp b), cells]

/-- An encoder that goes on after the last tick of a cell is at the beginning of one. -/
theorem step_eCnt_of_end_of_cell {s t : State} (hr : s.inputs.rst = false) (h : step s = .next t) (hrun : s.eRun = true)
    (hcnt : 9 ≤ s.eCnt.toNat) (hrun' : t.eRun = true) : t.eCnt = 0 := by
  rcases Nat.lt_or_ge 1 s.eLeft.toNat with hleft | hleft
  · obtain ⟨-, -, -, hzero, -⟩ := step_encoder_end_of_cell hr h hrun hcnt hleft
    exact hzero
  · cases hfifo : s.fifo with
    | nil =>
      obtain ⟨hidle, -⟩ := step_encoder_end_of_last_word hr h hrun hcnt hleft hfifo
      exact absurd hidle (by simp [hrun'])
    | cons w rest =>
      obtain ⟨-, -, -, hzero, -⟩ := step_encoder_load hr h hfifo fun _ => ⟨hcnt, hleft⟩
      exact hzero

/-- Bits that are sent in time: the line shows their cells to the end, from tick `cnt` of the first. -/
theorem doutTrace_of_sending (n : Nat) {s : State} {bits : List Bool} {cnt : Nat} (hsend : Sending s bits) (hinv : s.Inv)
    (hp : s.params.wellFormed = true) (hcnt : bits ≠ [] → s.eCnt.toNat = cnt) (hn : n + cnt = 10 * bits.length)
    (hcnt9 : cnt ≤ 9) (hr : s.NoReset n) : doutTrace n s = (cells s.params bits).drop cnt := by
  induction n generalizing s bits cnt with
  | zero =>
    obtain rfl : bits = [] := List.eq_nil_of_length_eq_zero (by omega)
    simp [doutTrace, cells]
  | succ n ih =>
    obtain ⟨b, bits, rfl⟩ := List.exists_cons_of_length_pos (l := bits) (by omega)
    have hrun := hsend.running (by simp)
    have hcnt := hcnt (by simp)
    obtain ⟨-, -, -, hdepth, -⟩ := wellFormed_iff.mp hp
    obtain ⟨t, h⟩ := stepNeverStops s hinv
    obtain ⟨hr0, hr'⟩ := noReset_of_step h hr
    obtain ⟨hinv', -⟩ := stepKeepsTheInvariants s t hinv h
    obtain ⟨-, -, hparams⟩ := step_env h
    have hsend' := hsend.step (by simp) hinv hdepth hr0 h
    have hdout : s.dout = decide (cnt < pulseTicks s.params b) := by
      rw [State.dout, hrun, hcnt, hsend.head_eq hinv, Bool.true_and]
    have hlen : (b :: bits).length = bits.length + 1 := rfl
    rw [doutTrace_succ h, hdout, drop_cells_cons hp b bits (by omega), ← hparams]
    congr 1
    rcases Nat.lt_or_ge cnt 9 with hinside | hend
    · rw [completedBits_inside_cell (by omega)] at hsend'
      obtain ⟨-, -, -, hcnt', -⟩ := step_encoder_inside_cell hr0 h hrun (by omega)
      exact ih hsend' hinv' (hparams ▸ hp) (fun _ => by omega) (by omega) (by omega) hr'
    · obtain rfl : cnt = 9 := by omega
      rw [completedBits_end_of_cell hrun hcnt] at hsend'
      rw [drop_cells_whole_cell (hparams ▸ hp), ← List.drop_zero (l := cells t.params bits)]
      refine ih hsend' hinv' (hparams ▸ hp) (fun hne => ?_) (by omega) (by omega) hr'
      rw [step_eCnt_of_end_of_cell hr0 h hrun (by omega) (hsend'.running hne)]
      rfl

/-- Settles O31: right after its load a word's bits are all in the encoder, so that nothing more is needed in time. -/
theorem wordOnTheWire : Obligations.WordOnTheWire := by
  intro s hinv hp hrun hleft hcnt hr
  have hbits : s.encoderBits = byteBits s.eSr := by
    rw [encoderBits_of_running hrun, hleft]
    exact List.take_of_length_le (by simp [length_byteBits])
  have howed : byteBits s.eSr <+: s.owedBits := by
    rw [State.owedBits, hbits, List.append_assoc]
    exact List.prefix_append _ _
  have hsend := sending_of_load howed hrun (by rw [ticksLeft_of_load hrun hleft hcnt]; decide)
  exact doutTrace_of_sending 80 hsend hinv hp (cnt := 0) (fun _ => by rw [hcnt]; rfl) (by rw [length_byteBits])
    (by decide) hr

/-! A whole frame. -/

/-- A tick of an idle encoder in which no frame starts leaves what is owed. -/
theorem step_owedBits_of_idle {s t : State} (hinv : s.Inv) (hr : s.inputs.rst = false) (h : step s = .next t)
    (hidle : s.eRun = false) (hnot : ¬ s.StartsFrame) : t.owedBits = s.owedBits := by
  obtain ⟨hkeep, -⟩ := owedBitsAreConserved s t hinv hr h
  rw [hkeep hnot, completedBits_of_idle hidle, List.nil_append]

/-- Settles O37: after three low ticks the encoder stands at the first bit of the frame, which is all that is owed, and sends
it in time (`doutTrace_of_sending`). -/
theorem frameOnTheWire : Obligations.FrameOnTheWire := by
  intro s hinv ⟨hwalker, _, hfifo, hidle⟩ hstart hp hr
  obtain ⟨-, -, -, hdepth, -⟩ := wellFormed_iff.mp hp
  obtain ⟨t1, t2, t3, ⟨hstep1, h1⟩, ⟨hstep2, h2⟩, hstep3, hrun, hleft, hcnt⟩ :=
    steps_of_startsFrame hstart hfifo hidle hdepth fun k hk => hr k (by omega)
  obtain ⟨hr0, hr1⟩ := noReset_of_step hstep1 hr
  obtain ⟨hr1, hr2⟩ := noReset_of_step hstep2 hr1
  obtain ⟨hr2, hr3⟩ := noReset_of_step hstep3 hr2
  obtain ⟨hinv1, -⟩ := stepKeepsTheInvariants s t1 hinv hstep1
  obtain ⟨hinv2, -⟩ := stepKeepsTheInvariants t1 t2 hinv1 hstep2
  obtain ⟨hinv3, -⟩ := stepKeepsTheInvariants t2 t3 hinv2 hstep3
  have howed : t3.owedBits = frameBits s.fb := by
    have howed0 : s.owedBits = [] := by
      simp [State.owedBits, State.pendingWords, encoderBits_of_idle hidle, hfifo, hwalker]
    have howed1 := (owedBitsAreConserved s t1 hinv hr0 hstep1).2 hstart
    rw [howed0, completedBits_of_idle hidle, List.nil_append, List.nil_append] at howed1
    rw [step_owedBits_of_idle hinv2 hr2 hstep3 h2.encoder (not_startsFrame_of_walker h2.walker),
      step_owedBits_of_idle hinv1 hr1 hstep2 h1.encoder (not_startsFrame_of_walker h1.walker), howed1]
  have hparams : t3.params = s.params := (step_env hstep3).2.2.trans h2.params
  have hsend : Sending t3 (frameBits s.fb) :=
    sending_of_load (howed ▸ List.prefix_rfl) hrun (by rw [ticksLeft_of_load hrun hleft hcnt]; decide)
  have hcells := doutTrace_of_sending 6000 hsend hinv3 (hparams ▸ hp) (cnt := 0) (fun _ => by rw [hcnt]; rfl)
    (by rw [length_frameBits]) (by decide) hr3
  rw [doutTrace_succ hstep1, doutTrace_succ hstep2, doutTrace_succ hstep3, hcells, dout_of_idle hidle,
    dout_of_idle h1.encoder, dout_of_idle h2.encoder, hparams]
  rfl

end Sys2Proof.Machine
end

section
/-! The time of a TRANSMIT (R165, R181 (c), R294): a bound from every state, and the exact tick from a quiescent block. -/

namespace Sys2Proof.Machine

/-! The encoder's countdown and its pops. -/

theorem encoderPops_iff_ticksLeft {s : State} (hinv : s.Inv) :
    s.encoderPops = true ↔ s.fifo ≠ [] ∧ s.ticksLeft = 0 := by
  obtain ⟨-, -, -, -, -, hencoder, -⟩ := hinv
  rw [encoderPops_iff, State.ticksLeft]
  refine and_congr_right fun _ => ?_
  by_cases hrun : s.eRun = true
  · obtain ⟨hone, -, hnine⟩ := hencoder hrun
    change s.eCnt.toNat ≤ 9 at hnine
    simp only [hrun, if_true, forall_const]
    omega
  · simp [hrun]

/-- A tick counts down, or loads a word of 80 ticks. -/
theorem step_ticksLeft {s t : State} (hinv : s.Inv) (hr : s.inputs.rst = false) (h : step s = .next t) :
    t.ticksLeft = if s.encoderPops then 79 else s.ticksLeft - 1 := by
  rcases Nat.eq_zero_or_pos s.ticksLeft with hzero | hpos
  · by_cases hfifo : s.fifo = []
    · have hidle : t.eRun = false := by
        by_cases hrun : s.eRun = true
        · rw [ticksLeft_of_running hrun] at hzero
          exact (step_encoder_end_of_last_word hr h hrun (by omega) (by omega) hfifo).1
        · exact (step_encoder_idle hr h (by simpa using hrun) hfifo).1
      rw [if_neg (by simp [not_encoderPops_of_nil hfifo]), hzero, State.ticksLeft, if_neg (by simp [hidle])]
    · obtain ⟨-, hleft, hpop⟩ := step_ticksLeft_of_zero hinv hr h hzero hfifo
      rw [hpop, if_pos rfl, hleft]
  · obtain ⟨-, hleft, hpop⟩ := step_ticksLeft_of_pos hinv hr h hpos
    rw [hpop, if_neg Bool.false_ne_true]
    omega

/-! A bound on the ticks a TRANSMIT still takes: 80 for each word but the next, and for that one, if the queue is full, the
encoder's countdown, the tick of its pop and the tick of the push. -/

def State.pushBound (s : State) : Nat :=
  80 * (s.pendingWords.length - 1) + if s.params.fifoDepth ≤ s.fifo.length then s.ticksLeft + 2 else 1

theorem pushBound_of_full {s : State} (h : s.params.fifoDepth ≤ s.fifo.length) :
    s.pushBound = 80 * (s.pendingWords.length - 1) + (s.ticksLeft + 2) := by
  rw [State.pushBound, if_pos h]

theorem pushBound_of_room {s : State} (h : s.fifo.length < s.params.fifoDepth) :
    s.pushBound = 80 * (s.pendingWords.length - 1) + 1 := by
  rw [State.pushBound, if_neg (Nat.not_le.mpr h)]

theorem pushBound_le {s : State} (hinv : s.Inv) : s.pushBound ≤ 6004 := by
  have hleft := ticksLeft_le hinv
  have hpend : s.pendingWords.length ≤ 75 := by
    unfold State.pendingWords
    split
    · rw [List.length_drop, length_frameWords]; omega
    · exact Nat.zero_le _
  unfold State.pushBound
  split <;> omega

/-- The walker is active as long as there are words to push. -/
theorem wActive_iff_pendingWords {s : State} (hinv : s.Inv) : s.wActive = true ↔ 0 < s.pendingWords.length := by
  obtain ⟨-, hwalk, -⟩ := hinv
  refine ⟨fun hactive => ?_, fun hpend => by_contra fun hinactive => ?_⟩
  · obtain ⟨-, -, hpix, hch⟩ := hwalk hactive
    obtain ⟨v, hv⟩ := walkerByte_of_le (fb := s.fb) hpix hch
    rw [pendingWords_eq_cons hactive hv]
    exact Nat.succ_pos _
  · simp [State.pendingWords, hinactive] at hpend

/-- What a tick with the walker active does to the words to push and to the queue: with room a word passes from these to
that, with none it waits; a pop takes another. -/
theorem step_of_active_walker {s t : State} (hinv : s.Inv) (hr : s.inputs.rst = false) (hactive : s.wActive = true)
    (h : step s = .next t) : t.fb = s.fb ∧
      ((s.fifo.length < s.params.fifoDepth ∧ t.pendingWords.length + 1 = s.pendingWords.length ∧
        t.fifo.length = (if s.encoderPops then s.fifo.length - 1 else s.fifo.length) + 1) ∨
       (s.params.fifoDepth ≤ s.fifo.length ∧ t.pendingWords.length = s.pendingWords.length ∧
        t.fifo.length = if s.encoderPops then s.fifo.length - 1 else s.fifo.length)) := by
  rcases Nat.lt_or_ge s.fifo.length s.params.fifoDepth with hroom | hfull
  · obtain ⟨t', w, rest, h', hpend, hfifo, hpend', -, hfb⟩ := walkerPushesTheNextWord s hinv hr hactive hroom
    cases h.symm.trans h'
    refine ⟨hfb, .inl ⟨hroom, by rw [hpend, hpend']; rfl, ?_⟩⟩
    rw [hfifo]
    split <;> simp
  · obtain ⟨t', h', hactive', hpix, hch, hfb, -, hfifo⟩ := walkerWaitsWhileTheFifoIsFull s hinv hr hactive hfull
    cases h.symm.trans h'
    have hpend : t.pendingWords = s.pendingWords := by
      simp only [State.pendingWords, State.walkerPos, hactive, hactive', hpix, hch, hfb]
    refine ⟨hfb, .inr ⟨hfull, by rw [hpend], ?_⟩⟩
    rw [hfifo]
    split <;> simp

/-- A tick with the walker active brings the bound down, or the TRANSMIT to its end. -/
theorem step_pushBound {s t : State} (hinv : s.Inv) (hdepth : 1 ≤ s.params.fifoDepth) (hr : s.inputs.rst = false)
    (hactive : s.wActive = true) (h : step s = .next t) (hactive' : t.wActive = true) :
    t.pushBound + 1 ≤ s.pushBound := by
  obtain ⟨hinv', -⟩ := stepKeepsTheInvariants s t hinv h
  obtain ⟨-, -, hparams⟩ := step_env h
  have hpend := (wActive_iff_pendingWords hinv').mp hactive'
  have hleft := ticksLeft_le hinv
  have hleft' := step_ticksLeft hinv hr h
  rcases (step_of_active_walker hinv hr hactive h).2 with ⟨hroom, hlen, hfifo⟩ | ⟨hfull, hlen, hfifo⟩
  · rw [pushBound_of_room hroom]
    by_cases hpop : s.encoderPops = true
    · rw [if_pos hpop] at hfifo
      have hword : 0 < s.fifo.length := List.length_pos_iff.mpr (encoderPops_iff.mp hpop).1
      rw [pushBound_of_room (by rw [hparams]; omega)]
      omega
    · rw [if_neg hpop] at hleft'
      unfold State.pushBound
      split <;> omega
  · rw [pushBound_of_full hfull]
    by_cases hpop : s.encoderPops = true
    · obtain ⟨-, -, -, hle, -⟩ := hinv
      rw [if_pos hpop] at hfifo
      rw [pushBound_of_room (by rw [hparams]; omega)]
      omega
    · have hpos : 0 < s.ticksLeft := by
        by_contra hzero
        exact hpop ((encoderPops_iff_ticksLeft hinv).mpr ⟨List.ne_nil_of_length_pos (by omega), by omega⟩)
      rw [if_neg hpop] at hleft' hfifo
      rw [pushBound_of_full (by rw [hparams]; omega)]
      omega

theorem transmit_completes_within (bound : Nat) {s : State} (hinv : s.Inv) (hdepth : 1 ≤ s.params.fifoDepth)
    (hactive : s.wActive = true) (hbound : s.pushBound ≤ bound) (hr : s.NoReset bound) :
    ∃ n t, n ≤ bound ∧ runTicks n s = .next t ∧ t.wActive = false ∧ t.fb = s.fb := by
  induction bound generalizing s with
  | zero =>
    unfold State.pushBound at hbound
    split at hbound <;> omega
  | succ bound ih =>
    obtain ⟨t, h⟩ := stepNeverStops s hinv
    obtain ⟨hr0, hr'⟩ := noReset_of_step h hr
    obtain ⟨hinv', -⟩ := stepKeepsTheInvariants s t hinv h
    obtain ⟨-, -, hparams⟩ := step_env h
    obtain ⟨hfb, -⟩ := step_of_active_walker hinv hr0 hactive h
    cases hactive' : t.wActive with
    | false => exact ⟨1, t, by omega, (runTicks_succ h).trans rfl, hactive', hfb⟩
    | true =>
      have hless := step_pushBound hinv hdepth hr0 hactive h hactive'
      obtain ⟨n, u, hn, hrun, hdone, hfb'⟩ := ih hinv' (hparams ▸ hdepth) hactive' (by omega) hr'
      exact ⟨n + 1, u, by omega, (runTicks_succ h).trans hrun, hdone, hfb'.trans hfb⟩

/-- Settles O35: the bound is at most 6004 and every tick brings it down. -/
theorem transmitCompletes : Obligations.TransmitCompletes :=
  fun _ hinv hdepth hactive hr => transmit_completes_within 6004 hinv hdepth hactive (pushBound_le hinv) hr

/-! The exact tick. -/

/-- How many words of a frame accepted in tick 0 are pushed by tick `3 + 80 * k + j`, where `j < 80` counts the ticks of
word `k` in the encoder, with a queue of `depth` words: one a tick until the queue is full, and after that one for each pop,
in the tick after it. -/
def pushedBy (depth k j : Nat) : Nat := min (2 + 80 * k + j) (k + depth + if j = 0 then 0 else 1)

/-- The block in tick `3 + 80 * k + j` of a TRANSMIT accepted in tick 0 from a quiescent block. -/
structure Transmitting (depth k j : Nat) (s : State) : Prop where
  inv : s.Inv
  params : s.params.fifoDepth = depth
  ready : s.life = .ready
  mapper : s.mState = .idle
  countdown : s.ticksLeft + j = 79
  pending : s.pendingWords.length + pushedBy depth k j = 75
  queued : s.fifo.length + k + 1 = pushedBy depth k j

theorem Transmitting.wActive_iff {depth k j : Nat} {s : State} (h : Transmitting depth k j s) :
    s.wActive = true ↔ pushedBy depth k j < 75 := by
  have hpend := h.pending
  rw [wActive_iff_pendingWords h.inv]
  omega

theorem Transmitting.cmdReady_iff {depth k j : Nat} {s : State} (h : Transmitting depth k j s) :
    s.cmdReady = true ↔ ¬ pushedBy depth k j < 75 := by
  simp [Machine.cmdReady_iff, h.ready, h.mapper, ← h.wActive_iff]

/-- A tick with the walker active leaves LIFE and the mapper as they are. -/
theorem step_frame_of_active_walker {s t : State} (hinv : s.Inv) (hr : s.inputs.rst = false) (hactive : s.wActive = true)
    (h : step s = .next t) : t.life = .ready ∧ t.mState = .idle := by
  obtain ⟨-, hwalk, -⟩ := hinv
  obtain ⟨hready, hmapper, -⟩ := hwalk hactive
  have hnot : s.accepts = false := not_accepts_of_not_idle (by simp [hactive])
  obtain ⟨-, hlife, -, -, -, -, -, -, -, -, hidle⟩ := nothingAcceptedNothingDone s t hr hnot h
  exact ⟨hlife.trans hready, (hidle hmapper).1⟩

/-- The tick after tick `j` of word `k` is in the same word or begins the next. -/
theorem tick_cases {k j k' j' : Nat} (hj : j < 80) (hj' : j' < 80) (hnext : 80 * k' + j' = 80 * k + j + 1) :
    k' = k ∧ j' = j + 1 ∧ j ≠ 79 ∨ k' = k + 1 ∧ j' = 0 ∧ j = 79 := by
  omega

/-- `pushedBy` grows by one in a tick that finds room in the queue. -/
theorem pushedBy_next {depth k j k' j' queued : Nat} (hdepth73 : depth ≤ 73)
    (hkj : k' = k ∧ j' = j + 1 ∧ j ≠ 79 ∨ k' = k + 1 ∧ j' = 0 ∧ j = 79) (hqueue : queued + k + 1 = pushedBy depth k j) :
    pushedBy depth k' j' = if queued < depth then pushedBy depth k j + 1 else pushedBy depth k j := by
  unfold pushedBy at hqueue ⊢
  rcases hkj with ⟨rfl, rfl, hne⟩ | ⟨rfl, rfl, rfl⟩
  · rw [if_neg (Nat.succ_ne_zero j)]
    split_ifs at hqueue ⊢ <;> omega
  · split_ifs at hqueue ⊢ <;> omega

section
variable {depth k j : Nat} {s t : State} (hs : Transmitting depth k j s) (hdepth : 1 ≤ depth)
include hs hdepth

/-- The encoder takes a word in the last tick of each word, and finds one. -/
theorem Transmitting.encoderPops_iff : s.encoderPops = true ↔ j = 79 := by
  have hqueue := hs.queued
  have hcount := hs.countdown
  rw [encoderPops_iff_ticksLeft hs.inv, ← List.length_pos_iff]
  unfold pushedBy at hqueue
  split at hqueue <;> omega

/-- One tick further, in the same word of the encoder or at the beginning of the next. -/
theorem Transmitting.step {k' j' : Nat} (hdepth73 : depth ≤ 73) (hmore : pushedBy depth k j < 75)
    (hr : s.inputs.rst = false) (h : step s = .next t)
    (hkj : k' = k ∧ j' = j + 1 ∧ j ≠ 79 ∨ k' = k + 1 ∧ j' = 0 ∧ j = 79) : Transmitting depth k' j' t := by
  have hactive := hs.wActive_iff.mpr hmore
  have hpop := hs.encoderPops_iff hdepth
  obtain ⟨hinv, hparams, -, -, hcount, hpend, hqueue⟩ := hs
  obtain ⟨hinv', -⟩ := stepKeepsTheInvariants s t hinv h
  obtain ⟨-, -, hparams'⟩ := step_env h
  obtain ⟨hready', hmapper'⟩ := step_frame_of_active_walker hinv hr hactive h
  have hcount' := step_ticksLeft hinv hr h
  have hpushed := pushedBy_next hdepth73 hkj hqueue
  obtain ⟨-, hwork⟩ := step_of_active_walker hinv hr hactive h
  simp only [hpop, hparams] at hwork hcount'
  refine ⟨hinv', by rw [hparams', hparams], hready', hmapper', ?_, ?_, ?_⟩
  · split at hcount' <;> omega
  · split at hpushed <;> omega
  · rw [hpushed]
    rcases hkj with ⟨rfl, rfl, hne⟩ | ⟨rfl, rfl, rfl⟩
    · simp only [hne, if_false] at hwork
      split <;> omega
    · have hword : 0 < s.fifo.length := List.length_pos_iff.mpr (Machine.encoderPops_iff.mp (hpop.mpr rfl)).1
      simp only [if_true] at hwork
      split <;> omega

end

/-- The walker pushes its last word in tick `T - 1`, where `T = 4 + 80 * (74 - depth)`, and not before. -/
theorem pushedBy_lt_iff {depth k j : Nat} (hdepth : 1 ≤ depth) (hdepth73 : depth ≤ 73) (hj : j < 80)
    (hle : 3 + 80 * k + j ≤ 4 + 80 * (74 - depth)) :
    pushedBy depth k j < 75 ↔ 3 + 80 * k + j ≠ 4 + 80 * (74 - depth) := by
  unfold pushedBy
  split <;> omega

/-- In tick 3 the encoder has just loaded the first word, and the walker has pushed it, and another if there was room. -/
theorem transmitting_of_startsFrame {s : State} (hinv : s.Inv) (hquiet : s.Quiescent) (hstart : s.StartsFrame)
    (hdepth : 1 ≤ s.params.fifoDepth) (hr : s.NoReset 3) :
    ∃ t1 t2 t3, runTicks 1 s = .next t1 ∧ t1.wActive = true ∧ runTicks 2 s = .next t2 ∧ t2.wActive = true ∧
      runTicks 3 s = .next t3 ∧ Transmitting s.params.fifoDepth 0 0 t3 := by
  obtain ⟨-, -, hfifo, hidle⟩ := hquiet
  obtain ⟨t1, t2, t3, ⟨hstep1, h1⟩, ⟨hstep2, h2⟩, hstep3, hrun, hleft, hcnt⟩ :=
    steps_of_startsFrame hstart hfifo hidle hdepth hr
  have hrun1 : runTicks 1 s = .next t1 := (runTicks_succ hstep1).trans rfl
  have hrun2 := runTicks_snoc hrun1 hstep2
  have hrun3 := runTicks_snoc hrun2 hstep3
  refine ⟨t1, t2, t3, hrun1, h1.walker, hrun2, h2.walker, hrun3, ?_⟩
  obtain ⟨hinv1, -⟩ := stepKeepsTheInvariants s t1 hinv hstep1
  obtain ⟨hinv2, -⟩ := stepKeepsTheInvariants t1 t2 hinv1 hstep2
  obtain ⟨hinv3, -⟩ := stepKeepsTheInvariants t2 t3 hinv2 hstep3
  have hr2 : t2.inputs.rst = false := by rw [runTicks_inputs hrun2]; exact hr 2 (by decide)
  obtain ⟨hready, hmapper⟩ := step_frame_of_active_walker hinv2 hr2 h2.walker hstep3
  obtain ⟨w, hword⟩ := h2.fifo
  have hlen2 : t2.fifo.length = 1 := by rw [hword]; rfl
  have hpend2 : t2.pendingWords.length = 74 := by
    simp [State.pendingWords, State.walkerPos, h2.walker, h2.pix, h2.ch, length_frameWords]
  have hpop : t2.encoderPops = true :=
    encoderPops_iff.mpr ⟨by simp [hword], fun hrun => absurd hrun (by simp [h2.encoder])⟩
  obtain ⟨-, hwork⟩ := step_of_active_walker hinv2 hr2 h2.walker hstep3
  rw [h2.params, if_pos hpop] at hwork
  have hparams : t3.params = s.params := (step_env hstep3).2.2.trans h2.params
  refine ⟨hinv3, by rw [hparams], hready, hmapper, by rw [ticksLeft_of_load hrun hleft hcnt], ?_, ?_⟩
  · unfold pushedBy
    simp only [if_true]
    omega
  · unfold pushedBy
    simp only [if_true]
    omega

/-- The run from tick 3 on, up to the tick in which `cmd_ready` returns. -/
theorem transmitting_at {s t : State} {depth N : Nat} (hrun : runTicks 3 s = .next t) (ht : Transmitting depth 0 0 t)
    (hdepth : 1 ≤ depth) (hdepth73 : depth ≤ 73) (hr : s.NoReset N) (n : Nat) (hn : 3 + n ≤ 4 + 80 * (74 - depth))
    (hN : 3 + n ≤ N) : ∃ u, runTicks (3 + n) s = .next u ∧ Transmitting depth (n / 80) (n % 80) u := by
  induction n with
  | zero => exact ⟨t, hrun, ht⟩
  | succ n ih =>
    obtain ⟨u, hu, htrans⟩ := ih (by omega) (by omega)
    obtain ⟨v, h⟩ := stepNeverStops u htrans.inv
    have hru : u.inputs.rst = false := by rw [runTicks_inputs hu]; exact hr (3 + n) (by omega)
    have hmore : pushedBy depth (n / 80) (n % 80) < 75 :=
      (pushedBy_lt_iff hdepth hdepth73 (by omega) (by omega)).mpr (by omega)
    exact ⟨v, runTicks_snoc hu h, htrans.step hdepth hdepth73 hmore hru h (tick_cases (by omega) (by omega) (by omega))⟩

/-- Settles O36: in ticks 1 and 2 the walker is active, and from tick 3 on it is so until `pushedBy` reaches
the 75 words of the frame. -/
theorem transmitReadyTime : Obligations.TransmitReadyTime := by
  intro s hinv hquiet hstart hdepth hdepth73 hr n hn hnT
  obtain ⟨t1, t2, t3, hrun1, hactive1, hrun2, hactive2, hrun3, htrans⟩ :=
    transmitting_of_startsFrame hinv hquiet hstart hdepth fun k hk => hr k (by omega)
  have hbusy {t : State} (hactive : t.wActive = true) : ¬ t.cmdReady = true := by simp [State.cmdReady, hactive]
  obtain rfl | rfl | hn3 : n = 1 ∨ n = 2 ∨ 3 ≤ n := by omega
  · exact ⟨t1, hrun1, iff_of_false (hbusy hactive1) (by omega)⟩
  · exact ⟨t2, hrun2, iff_of_false (hbusy hactive2) (by omega)⟩
  · obtain ⟨m, rfl⟩ := Nat.exists_eq_add_of_le hn3
    obtain ⟨t, hrun, ht⟩ := transmitting_at hrun3 htrans hdepth hdepth73 hr m hnT (by omega)
    refine ⟨t, hrun, ?_⟩
    rw [ht.cmdReady_iff, pushedBy_lt_iff hdepth hdepth73 (by omega) (by omega), not_not]
    omega

end Sys2Proof.Machine
end
